-- ==== Sys2Proof/Word.lean ====
section
/-! DEFINITION. The widths of the hardware's values (spec/00_scope.md R5, R7; spec/30_encoding.md R92). -/

namespace Sys2Proof

/-- 8 bits: a `V` register, a timer, one byte of `mem`, the immediate `nn` (R5 `XLEN`, `TIMER_WIDTH`). -/
abbrev Byte := BitVec 8

/-- 16 bits: `PC`, `I`, a stack slot, an opcode, a keypad snapshot (R5 `PC_WIDTH`, `I_WIDTH`, `STACK_WIDTH`). -/
abbrev Word := BitVec 16

/-- A 4-bit register index, the field `x` or `y` of an opcode (R92). -/
abbrev RegIdx := BitVec 4

end Sys2Proof
end

