-- ==== Sys2Proof/Syntax.lean ====
section
/-! DEFINITION. The instruction set: one constructor per row of spec/opcode_table.json (spec/30_encoding.md R96), in the table's order, named `op` followed by the pattern, which is the mnemonic (R101). -/

namespace Sys2Proof

/-- The 32 instructions with their operand fields (R92, R93). -/
inductive Instr where
  | op00E0
  | op00EE
  | op1nnn (nnn : BitVec 12)
  | op2nnn (nnn : BitVec 12)
  | op3xnn (x : RegIdx) (nn : Byte)
  | op4xnn (x : RegIdx) (nn : Byte)
  | op6xnn (x : RegIdx) (nn : Byte)
  | op7xnn (x : RegIdx) (nn : Byte)
  | op8xy0 (x y : RegIdx)
  | op8xy1 (x y : RegIdx)
  | op8xy2 (x y : RegIdx)
  | op8xy3 (x y : RegIdx)
  | op8xy4 (x y : RegIdx)
  | op8xy5 (x y : RegIdx)
  | op8xy6 (x y : RegIdx)
  | op8xy7 (x y : RegIdx)
  | op8xyE (x y : RegIdx)
  | op9xy0 (x y : RegIdx)
  | opAnnn (nnn : BitVec 12)
  | opCxnn (x : RegIdx) (nn : Byte)
  | opDxyn (x y : RegIdx) (n : BitVec 4)
  | opEx9E (x : RegIdx)
  | opExA1 (x : RegIdx)
  | opFx07 (x : RegIdx)
  | opFx0A (x : RegIdx)
  | opFx15 (x : RegIdx)
  | opFx18 (x : RegIdx)
  | opFx1E (x : RegIdx)
  | opFx29 (x : RegIdx)
  | opFx33 (x : RegIdx)
  | opFx55 (x : RegIdx)
  | opFx65 (x : RegIdx)
  deriving DecidableEq, Repr

end Sys2Proof
end

