-- ==== Sys2Proof/WellFormed.lean ====
section
/-! DEFINITION. Which operand values an instruction word can carry: each field fits its width (spec/30_encoding.md R92). The fields of Instr have those widths as their types, so the check refuses only terms written as numbers. -/

namespace Sys2Proof

/-- The operand fields of R92. -/
inductive Field where
  | x
  | y
  | n
  | nn
  | nnn
  deriving DecidableEq, Repr

/-- A field's width in bits (R92). -/
def Field.width : Field → Nat
  | .x => 4
  | .y => 4
  | .n => 4
  | .nn => 8
  | .nnn => 12

/-- Whether a number fits the field. -/
def Field.fits (f : Field) (value : Nat) : Bool := value < 2 ^ f.width

/-- Every operand of a list fits its field. -/
def operandsFit (ops : List (Field × Nat)) : Bool := ops.all fun p => p.1.fits p.2

/-- An instruction's operands as numbers, by field, in the order its pattern spells them (R93). -/
def Instr.operands : Instr → List (Field × Nat)
  | .op00E0 | .op00EE => []
  | .op1nnn nnn | .op2nnn nnn | .opAnnn nnn => [(.nnn, nnn.toNat)]
  | .op3xnn x nn | .op4xnn x nn | .op6xnn x nn | .op7xnn x nn | .opCxnn x nn =>
    [(.x, x.toNat), (.nn, nn.toNat)]
  | .op8xy0 x y | .op8xy1 x y | .op8xy2 x y | .op8xy3 x y | .op8xy4 x y | .op8xy5 x y
  | .op8xy6 x y | .op8xy7 x y | .op8xyE x y | .op9xy0 x y => [(.x, x.toNat), (.y, y.toNat)]
  | .opDxyn x y n => [(.x, x.toNat), (.y, y.toNat), (.n, n.toNat)]
  | .opEx9E x | .opExA1 x | .opFx07 x | .opFx0A x | .opFx15 x | .opFx18 x | .opFx1E x
  | .opFx29 x | .opFx33 x | .opFx55 x | .opFx65 x => [(.x, x.toNat)]

/-- The well-formedness of an instruction. -/
def Instr.wf (i : Instr) : Bool := operandsFit i.operands

end Sys2Proof
end

