-- ==== Sys2Proof/Decode.lean ====
section
/-! DEFINITION. Decoding (spec/30_encoding.md R91 to R97, R103) and the encoder. -/

namespace Sys2Proof

/-- Why a word or a byte string is no instruction: the row of R97's table the word falls under, or
fewer bytes than an instruction has (R90). -/
inductive Unrecognised where
  | family0
  | family5
  | family8
  | family9
  | familyB
  | familyE
  | familyF
  | truncated
  deriving DecidableEq, Repr

/-- `op[15:12]` (R92). -/
def fieldFamily (op : Word) : BitVec 4 := op.extractLsb' 12 4

/-- `x = op[11:8]` (R92). -/
def fieldX (op : Word) : RegIdx := op.extractLsb' 8 4

/-- `y = op[7:4]` (R92). -/
def fieldY (op : Word) : RegIdx := op.extractLsb' 4 4

/-- `n = op[3:0]` (R92). -/
def fieldN (op : Word) : BitVec 4 := op.extractLsb' 0 4

/-- `nn = op[7:0]` (R92). -/
def fieldNN (op : Word) : Byte := op.extractLsb' 0 8

/-- `nnn = op[11:0]` (R92). -/
def fieldNNN (op : Word) : BitVec 12 := op.extractLsb' 0 12

/-- Family 0 requires all 16 bits (R95). -/
def decodeFamily0 (op : Word) : Except Unrecognised Instr :=
  if op = 0x00E0#16 then .ok .op00E0
  else if op = 0x00EE#16 then .ok .op00EE
  else .error .family0

/-- Family 8: the low nibble is the sub-selector (R95). -/
def decodeFamily8 (x y : RegIdx) (n : BitVec 4) : Except Unrecognised Instr :=
  if n = 0x0#4 then .ok (.op8xy0 x y)
  else if n = 0x1#4 then .ok (.op8xy1 x y)
  else if n = 0x2#4 then .ok (.op8xy2 x y)
  else if n = 0x3#4 then .ok (.op8xy3 x y)
  else if n = 0x4#4 then .ok (.op8xy4 x y)
  else if n = 0x5#4 then .ok (.op8xy5 x y)
  else if n = 0x6#4 then .ok (.op8xy6 x y)
  else if n = 0x7#4 then .ok (.op8xy7 x y)
  else if n = 0xE#4 then .ok (.op8xyE x y)
  else .error .family8

/-- Family E: the low byte is the sub-selector (R95). -/
def decodeFamilyE (x : RegIdx) (nn : Byte) : Except Unrecognised Instr :=
  if nn = 0x9E#8 then .ok (.opEx9E x)
  else if nn = 0xA1#8 then .ok (.opExA1 x)
  else .error .familyE

/-- Family F: the low byte is the sub-selector (R95). -/
def decodeFamilyF (x : RegIdx) (nn : Byte) : Except Unrecognised Instr :=
  if nn = 0x07#8 then .ok (.opFx07 x)
  else if nn = 0x0A#8 then .ok (.opFx0A x)
  else if nn = 0x15#8 then .ok (.opFx15 x)
  else if nn = 0x18#8 then .ok (.opFx18 x)
  else if nn = 0x1E#8 then .ok (.opFx1E x)
  else if nn = 0x29#8 then .ok (.opFx29 x)
  else if nn = 0x33#8 then .ok (.opFx33 x)
  else if nn = 0x55#8 then .ok (.opFx55 x)
  else if nn = 0x65#8 then .ok (.opFx65 x)
  else .error .familyF

/-- `decode(op)` of R95: first the family, then the sub-selector; literal matching (R95, D17). -/
def decode (op : Word) : Except Unrecognised Instr :=
  if fieldFamily op = 0x0#4 then decodeFamily0 op
  else if fieldFamily op = 0x1#4 then .ok (.op1nnn (fieldNNN op))
  else if fieldFamily op = 0x2#4 then .ok (.op2nnn (fieldNNN op))
  else if fieldFamily op = 0x3#4 then .ok (.op3xnn (fieldX op) (fieldNN op))
  else if fieldFamily op = 0x4#4 then .ok (.op4xnn (fieldX op) (fieldNN op))
  else if fieldFamily op = 0x5#4 then .error .family5
  else if fieldFamily op = 0x6#4 then .ok (.op6xnn (fieldX op) (fieldNN op))
  else if fieldFamily op = 0x7#4 then .ok (.op7xnn (fieldX op) (fieldNN op))
  else if fieldFamily op = 0x8#4 then decodeFamily8 (fieldX op) (fieldY op) (fieldN op)
  else if fieldFamily op = 0x9#4 then
    (if fieldN op = 0x0#4 then .ok (.op9xy0 (fieldX op) (fieldY op)) else .error .family9)
  else if fieldFamily op = 0xA#4 then .ok (.opAnnn (fieldNNN op))
  else if fieldFamily op = 0xB#4 then .error .familyB
  else if fieldFamily op = 0xC#4 then .ok (.opCxnn (fieldX op) (fieldNN op))
  else if fieldFamily op = 0xD#4 then .ok (.opDxyn (fieldX op) (fieldY op) (fieldN op))
  else if fieldFamily op = 0xE#4 then decodeFamilyE (fieldX op) (fieldNN op)
  else decodeFamilyF (fieldX op) (fieldNN op)

/-- The opcode of two consecutive bytes: the byte at the lower address is bits 15:8 (R91, R64). -/
def assembleOpcode (first second : Byte) : Word := first ++ second

/-- The byte of an opcode at the lower address (R91). -/
def opcodeHigh (op : Word) : Byte := op.extractLsb' 8 8

/-- The byte of an opcode at the higher address (R91). -/
def opcodeLow (op : Word) : Byte := op.extractLsb' 0 8

/-- The decoder over a byte string: exactly two bytes are consumed (R90, R100), the rest is answered. -/
def decodeBytes : List Byte → Except Unrecognised (Instr × List Byte)
  | first :: second :: rest =>
    match decode (assembleOpcode first second) with
    | .ok i => .ok (i, rest)
    | .error e => .error e
  | _ => .error .truncated

/-- A row of R96's table: `op &&& mask = pattern` selects the instruction. -/
structure Row where
  mnemonic : String
  mask : Word
  pattern : Word
  deriving DecidableEq, Repr

/-- An instruction's row of R96's table. -/
def Instr.row : Instr → Row
  | .op00E0 => ⟨"00E0", 0xFFFF#16, 0x00E0#16⟩
  | .op00EE => ⟨"00EE", 0xFFFF#16, 0x00EE#16⟩
  | .op1nnn _ => ⟨"1nnn", 0xF000#16, 0x1000#16⟩
  | .op2nnn _ => ⟨"2nnn", 0xF000#16, 0x2000#16⟩
  | .op3xnn _ _ => ⟨"3xnn", 0xF000#16, 0x3000#16⟩
  | .op4xnn _ _ => ⟨"4xnn", 0xF000#16, 0x4000#16⟩
  | .op6xnn _ _ => ⟨"6xnn", 0xF000#16, 0x6000#16⟩
  | .op7xnn _ _ => ⟨"7xnn", 0xF000#16, 0x7000#16⟩
  | .op8xy0 _ _ => ⟨"8xy0", 0xF00F#16, 0x8000#16⟩
  | .op8xy1 _ _ => ⟨"8xy1", 0xF00F#16, 0x8001#16⟩
  | .op8xy2 _ _ => ⟨"8xy2", 0xF00F#16, 0x8002#16⟩
  | .op8xy3 _ _ => ⟨"8xy3", 0xF00F#16, 0x8003#16⟩
  | .op8xy4 _ _ => ⟨"8xy4", 0xF00F#16, 0x8004#16⟩
  | .op8xy5 _ _ => ⟨"8xy5", 0xF00F#16, 0x8005#16⟩
  | .op8xy6 _ _ => ⟨"8xy6", 0xF00F#16, 0x8006#16⟩
  | .op8xy7 _ _ => ⟨"8xy7", 0xF00F#16, 0x8007#16⟩
  | .op8xyE _ _ => ⟨"8xyE", 0xF00F#16, 0x800E#16⟩
  | .op9xy0 _ _ => ⟨"9xy0", 0xF00F#16, 0x9000#16⟩
  | .opAnnn _ => ⟨"Annn", 0xF000#16, 0xA000#16⟩
  | .opCxnn _ _ => ⟨"Cxnn", 0xF000#16, 0xC000#16⟩
  | .opDxyn _ _ _ => ⟨"Dxyn", 0xF000#16, 0xD000#16⟩
  | .opEx9E _ => ⟨"Ex9E", 0xF0FF#16, 0xE09E#16⟩
  | .opExA1 _ => ⟨"ExA1", 0xF0FF#16, 0xE0A1#16⟩
  | .opFx07 _ => ⟨"Fx07", 0xF0FF#16, 0xF007#16⟩
  | .opFx0A _ => ⟨"Fx0A", 0xF0FF#16, 0xF00A#16⟩
  | .opFx15 _ => ⟨"Fx15", 0xF0FF#16, 0xF015#16⟩
  | .opFx18 _ => ⟨"Fx18", 0xF0FF#16, 0xF018#16⟩
  | .opFx1E _ => ⟨"Fx1E", 0xF0FF#16, 0xF01E#16⟩
  | .opFx29 _ => ⟨"Fx29", 0xF0FF#16, 0xF029#16⟩
  | .opFx33 _ => ⟨"Fx33", 0xF0FF#16, 0xF033#16⟩
  | .opFx55 _ => ⟨"Fx55", 0xF0FF#16, 0xF055#16⟩
  | .opFx65 _ => ⟨"Fx65", 0xF0FF#16, 0xF065#16⟩

/-- R96's table, in its order. -/
def opcodeRows : List Row :=
  [Instr.row .op00E0, Instr.row .op00EE, Instr.row (.op1nnn 0), Instr.row (.op2nnn 0),
    Instr.row (.op3xnn 0 0), Instr.row (.op4xnn 0 0), Instr.row (.op6xnn 0 0), Instr.row (.op7xnn 0 0)] ++
  [Instr.row (.op8xy0 0 0), Instr.row (.op8xy1 0 0), Instr.row (.op8xy2 0 0), Instr.row (.op8xy3 0 0),
    Instr.row (.op8xy4 0 0), Instr.row (.op8xy5 0 0), Instr.row (.op8xy6 0 0), Instr.row (.op8xy7 0 0)] ++
  [Instr.row (.op8xyE 0 0), Instr.row (.op9xy0 0 0), Instr.row (.opAnnn 0), Instr.row (.opCxnn 0 0),
    Instr.row (.opDxyn 0 0 0), Instr.row (.opEx9E 0), Instr.row (.opExA1 0), Instr.row (.opFx07 0)] ++
  [Instr.row (.opFx0A 0), Instr.row (.opFx15 0), Instr.row (.opFx18 0), Instr.row (.opFx1E 0),
    Instr.row (.opFx29 0), Instr.row (.opFx33 0), Instr.row (.opFx55 0), Instr.row (.opFx65 0)]

/-- Format `FNNN` (R93). -/
def wordNNN (family : BitVec 4) (nnn : BitVec 12) : Word := family ++ nnn

/-- Format `FXNN` (R93); with `nn` fixed it is format `FX`. -/
def wordXNN (family : BitVec 4) (x : RegIdx) (nn : Byte) : Word := family ++ (x ++ nn : BitVec 12)

/-- Format `FXYN` (R93); with `n` fixed it is format `FXY`. -/
def wordXYN (family : BitVec 4) (x y : RegIdx) (n : BitVec 4) : Word :=
  family ++ (x ++ (y ++ n : BitVec 8) : BitVec 12)

/-- The word of an instruction, laid out by its format (R93) with its row's fixed digits (R96). -/
def encode : Instr → Word
  | .op00E0 => 0x00E0#16
  | .op00EE => 0x00EE#16
  | .op1nnn nnn => wordNNN 0x1#4 nnn
  | .op2nnn nnn => wordNNN 0x2#4 nnn
  | .op3xnn x nn => wordXNN 0x3#4 x nn
  | .op4xnn x nn => wordXNN 0x4#4 x nn
  | .op6xnn x nn => wordXNN 0x6#4 x nn
  | .op7xnn x nn => wordXNN 0x7#4 x nn
  | .op8xy0 x y => wordXYN 0x8#4 x y 0x0#4
  | .op8xy1 x y => wordXYN 0x8#4 x y 0x1#4
  | .op8xy2 x y => wordXYN 0x8#4 x y 0x2#4
  | .op8xy3 x y => wordXYN 0x8#4 x y 0x3#4
  | .op8xy4 x y => wordXYN 0x8#4 x y 0x4#4
  | .op8xy5 x y => wordXYN 0x8#4 x y 0x5#4
  | .op8xy6 x y => wordXYN 0x8#4 x y 0x6#4
  | .op8xy7 x y => wordXYN 0x8#4 x y 0x7#4
  | .op8xyE x y => wordXYN 0x8#4 x y 0xE#4
  | .op9xy0 x y => wordXYN 0x9#4 x y 0x0#4
  | .opAnnn nnn => wordNNN 0xA#4 nnn
  | .opCxnn x nn => wordXNN 0xC#4 x nn
  | .opDxyn x y n => wordXYN 0xD#4 x y n
  | .opEx9E x => wordXNN 0xE#4 x 0x9E#8
  | .opExA1 x => wordXNN 0xE#4 x 0xA1#8
  | .opFx07 x => wordXNN 0xF#4 x 0x07#8
  | .opFx0A x => wordXNN 0xF#4 x 0x0A#8
  | .opFx15 x => wordXNN 0xF#4 x 0x15#8
  | .opFx18 x => wordXNN 0xF#4 x 0x18#8
  | .opFx1E x => wordXNN 0xF#4 x 0x1E#8
  | .opFx29 x => wordXNN 0xF#4 x 0x29#8
  | .opFx33 x => wordXNN 0xF#4 x 0x33#8
  | .opFx55 x => wordXNN 0xF#4 x 0x55#8
  | .opFx65 x => wordXNN 0xF#4 x 0x65#8

/-- An instruction's two bytes in memory order: big-endian (R64, R91). -/
def encodeBytes (i : Instr) : List Byte := [opcodeHigh (encode i), opcodeLow (encode i)]

/-- The opcode the host's numbering of an opcode-table row names: bit 0 is the least significant bit
of the instruction's one 16-bit word, and bits at and above `nbits` are 0 (log 29). -/
def tableWord (nbits w : Nat) : Word := BitVec.ofNat 16 (w % 2 ^ nbits)

/-- The instruction the decoder reads from an opcode-table word laid out in memory order. -/
def decodeTableWord (nbits w : Nat) : Option Instr :=
  match decodeBytes [opcodeHigh (tableWord nbits w), opcodeLow (tableWord nbits w)] with
  | .ok (i, _) => some i
  | .error _ => none

end Sys2Proof
end

