-- ==== Sys2Proof/Config.lean ====
section
/-! DEFINITION. What is fixed for the machine: the constants of spec/00_scope.md R5, the free input `rnd` (R6, R34), and the names of the choices R6 lists (their values stand in Machine/Params.lean). -/

namespace Sys2Proof.Config

/-- `MEM_SIZE` (R5): 4096 bytes, addresses 0x000 to 0xFFF. -/
abbrev memSize : Nat := 0x1000

/-- `FONT_BASE` (R5). -/
abbrev fontBase : Nat := 0x050

/-- The font table's size in bytes: 16 glyphs of 5 bytes (R5). -/
abbrev fontSize : Nat := 80

/-- `PROG_BASE` (R5): where `LoadROM` writes. -/
abbrev progBase : Nat := 0x200

/-- `PC_RESET` (R5). -/
def pcReset : Word := 0x0200#16

/-- `FB_W` (R5): columns. -/
abbrev fbWidth : Nat := 64

/-- `FB_H` (R5): rows. -/
abbrev fbHeight : Nat := 32

/-- The two source registers a shift may have (R6 `SHIFT_SRC`, D11). -/
inductive ShiftSrc where
  | x
  | y
  deriving DecidableEq, Repr

/-- The free input `rnd` (10_state.md R34, R6, D10): the byte the `k`-th draw of a run samples.
It has no body, so nothing can be proved of its values and a claim holds for all of them (log 4). -/
opaque rnd : Nat → Byte

end Sys2Proof.Config
end

