-- ==== Sys2Proof/Machine/Params.lean ====
section
/-! DEFINITION. The values this spec takes for the parameters its source leaves open (spec/00_scope.md R6): each is the spec's decision or general knowledge, logged under its own number. -/

namespace Sys2Proof.Machine.Params

/-- `V_RESET` (R6, R36, D8; log 6). -/
def vReset : Byte := 0x00#8

/-- `I_RESET` (R6, R36, D8; log 6). -/
def iReset : Word := 0x0000#16

/-- `FX29_BASE` (R6, R235, conflict C2; log 9). -/
def fx29Base : Nat := 0x050

/-- `SHIFT_SRC` (R6, R168, R170, D11; log 10). -/
def shiftSrc : Config.ShiftSrc := .x

/-- `SPRITE_MSB_LEFT` (R6, R193, D32; log 11). -/
def spriteMsbLeft : Bool := true

/-- `FONT[0..79]` (R62; the bytes are general knowledge: log 8), glyph `d` at `5·d`. -/
def font : List Byte :=
  [0xF0, 0x90, 0x90, 0x90, 0xF0] ++ [0x20, 0x60, 0x20, 0x20, 0x70] ++
  [0xF0, 0x10, 0xF0, 0x80, 0xF0] ++ [0xF0, 0x10, 0xF0, 0x10, 0xF0] ++
  [0x90, 0x90, 0xF0, 0x10, 0x10] ++ [0xF0, 0x80, 0xF0, 0x10, 0xF0] ++
  [0xF0, 0x80, 0xF0, 0x90, 0xF0] ++ [0xF0, 0x10, 0x20, 0x40, 0x40] ++
  [0xF0, 0x90, 0xF0, 0x90, 0xF0] ++ [0xF0, 0x90, 0xF0, 0x10, 0xF0] ++
  [0xF0, 0x90, 0xF0, 0x90, 0x90] ++ [0xE0, 0x90, 0xE0, 0x90, 0xE0] ++
  [0xF0, 0x80, 0x80, 0x80, 0xF0] ++ [0xE0, 0x90, 0x90, 0x90, 0xE0] ++
  [0xF0, 0x80, 0xF0, 0x80, 0xF0] ++ [0xF0, 0x80, 0xF0, 0x80, 0x80]

/-- What `mem[a]` holds after reset (R36, R61): the font table at 0x050..0x09F, 0 elsewhere. -/
def resetByte (a : Nat) : Byte :=
  if Config.fontBase ≤ a ∧ a < Config.fontBase + Config.fontSize then
    font.getD (a - Config.fontBase) 0x00#8
  else 0x00#8

end Sys2Proof.Machine.Params
end

