-- ==== Sys2Proof/Machine/State.lean ====
section
/-! DEFINITION. The machine's state (spec/10_state.md, all of section 1), the outcomes' reasons, and reset (R36, R340). -/

namespace Sys2Proof.Machine

/-- Why the machine stops. It has no constructor: every fault of this hardware is fault entry, whose
effect the spec gives (spec/60_exceptions.md R308), so it is a next state with `fc` set (log 1). -/
inductive Fault where
  deriving DecidableEq, Repr

/-- Why an instruction has no meaning. -/
inductive Refusal where
  /-- Raised by `exec`'s arm of an instruction without a meaning yet; safe. No arm raises it now. -/
  | notModelled (mnemonic : String)
  deriving DecidableEq, Repr

/-- The fault cause `FC` (10_state.md R32, 60_exceptions.md R301). Codes 6 and 7 are never produced,
so they have no constructor (log 22). -/
inductive FaultCause where
  /-- 0: the core is running. -/
  | noFault
  /-- 1: `2nnn` with `SP = 16` (R303). -/
  | stackOverflow
  /-- 2: `00EE` with `SP = 0` (R304). -/
  | stackUnderflow
  /-- 3: fetch with `PC ≥ 0x0FFF` (R305). -/
  | fetchOutOfRange
  /-- 4: an operand range of `Dxyn`, `Fx33`, `Fx55`, `Fx65` past 0xFFF (R306). -/
  | dataOutOfRange
  /-- 5: `Fx1E` with `I + V[x] > 0xFFF` (R307). -/
  | indexOutOfRange
  deriving DecidableEq, Repr

/-- The operations the driver may request (spec/40_operations.md R120). -/
inductive HostOp where
  | reset
  | loadROM (bytes : List Byte)
  | runCycle
  | tickTimers
  | keyUpdate (snapshot : Word)
  | drawAck
  deriving DecidableEq, Repr

/-- What the block emits to the host. -/
inductive Event where
  /-- `UnknownOpcode(pc, opcode)` (60_exceptions.md R302). -/
  | unknownOpcode (pc opcode : Word)
  /-- `Fault(code, PC)` (R308). -/
  | fault (cause : FaultCause) (pc : Word)
  /-- `LoadROM` answered `ok` (40_operations.md R126). -/
  | romOk
  /-- `LoadROM` answered `RomTooLarge` (R126, R313). -/
  | romTooLarge
  deriving DecidableEq, Repr

/-- All the state there is (10_state.md section 1), and three fields of the model's own. -/
structure State where
  /-- `V[0..15]` (R20, R21). -/
  v : Vector Byte 16
  /-- `I` (R22). -/
  i : Word
  /-- `PC` (R23). -/
  pc : Word
  /-- `stack[0..15]` (R24). -/
  stack : Vector Word 16
  /-- `SP`, the number of slots in use, 0 to 16 (R24; log 21). -/
  sp : Fin 17
  /-- `DT` (R25). -/
  dt : Byte
  /-- `ST` (R26). -/
  st : Byte
  /-- `mem` (R33): the cells that differ from the reset contents, addresses rising (log 23). -/
  mem : List Host.Cell
  /-- `fb` (R27): bit `c` of entry `r` is `fb[r][c]` (log 20). -/
  fb : Vector (BitVec 64) 32
  /-- `DP` (R28). -/
  dp : Bool
  /-- `key_cur`, bit `k` is key `k` (R29). -/
  keyCur : Word
  /-- `key_prev`, bit `k` is key `k` (R29). -/
  keyPrev : Word
  /-- `WK` (R30). -/
  wk : Bool
  /-- `UNK` (R31). -/
  unk : Bool
  /-- `FC` (R32). -/
  fc : FaultCause
  /-- The model's own: how many values of the free input `rnd` have been drawn (R34; log 4). -/
  rndCount : Nat
  /-- The model's own: the operations the driver has requested, oldest first (R120, R129; log 2). -/
  schedule : List HostOp
  /-- The model's own: what the block has emitted, newest first (R302, R308, R126; log 5). -/
  events : List Event
  deriving DecidableEq, Repr

/-- The state after reset (R36, R340, R341). -/
def State.reset : State where
  v := Vector.replicate 16 Params.vReset
  i := Params.iReset
  pc := Config.pcReset
  stack := Vector.replicate 16 0x0000#16
  sp := 0
  dt := 0x00#8
  st := 0x00#8
  mem := []
  fb := Vector.replicate 32 0#64
  dp := false
  keyCur := 0x0000#16
  keyPrev := 0x0000#16
  wk := false
  unk := false
  fc := .noFault
  rndCount := 0
  schedule := []
  events := []

end Sys2Proof.Machine
end

