-- ==== Sys2Proof/Machine/Ops.lean ====
section
/-! DEFINITION. The named operations over memory, registers, stack, framebuffer and program counter; fetch; fault entry (spec/60_exceptions.md R308) and, beside it, Reset, the only way out of a fault (R310). -/

namespace Sys2Proof.Machine

/-- What a meaning, an operation and a step answer. -/
abbrev Result := Host.Outcome State Fault Refusal

/-! ### Memory (spec/20_memory.md) -/

namespace Memory

/-- What an unlisted address reads as: the reset contents (R36, R61; log 23). -/
def unlisted (a : Nat) : Byte := Params.resetByte a

/-- `MemRead(a, 1)` (00_scope.md R8). -/
def read : List Host.Cell → Nat → Byte
  | [], a => unlisted a
  | (k, b) :: rest, a => if k = a then b else read rest a

/-- `MemWrite(a, 1, b)` (R8), keeping the canonical form. -/
def write : List Host.Cell → Nat → Byte → List Host.Cell
  | [], a, b => if b = unlisted a then [] else [(a, b)]
  | (k, c) :: rest, a, b =>
    if a < k then (if b = unlisted a then (k, c) :: rest else (a, b) :: (k, c) :: rest)
    else if a = k then (if b = unlisted a then rest else (a, b) :: rest)
    else (k, c) :: write rest a b

/-- Successive bytes written from `a` up, in ascending order (R65, R67). -/
def writeBytes : List Host.Cell → Nat → List Byte → List Host.Cell
  | m, _, [] => m
  | m, a, b :: rest => writeBytes (write m a b) (a + 1) rest

/-- The canonical form from an address on: addresses strictly rising and inside the address space,
no cell equal to what an unlisted address reads as. -/
def wfFrom : Nat → List Host.Cell → Bool
  | _, [] => true
  | low, (k, b) :: rest =>
    decide (low ≤ k) && decide (k < Config.memSize) && decide (b ≠ unlisted k) && wfFrom (k + 1) rest

/-- The canonical form of memory. -/
def wf (m : List Host.Cell) : Bool := wfFrom 0 m

end Memory

/-- The bounds check of R68, on natural numbers: the `len` bytes from `base` pass 0xFFF. -/
def rangePassesEnd (base len : Nat) : Bool := 1 ≤ len && Config.memSize ≤ base + len - 1

/-! ### Registers -/

/-- `V[k]` (R20): no register is hard-wired. -/
def State.getV (s : State) (k : RegIdx) : Byte := s.v[k.toNat]'(k.isLt)

/-- `V[k] <- b` (R20). -/
def State.setV (s : State) (k : RegIdx) (b : Byte) : State := { s with v := s.v.set k.toNat b k.isLt }

/-- `VF` (R21). -/
def regF : RegIdx := 0xF#4

/-- A result and a flag: the result to `V[x]` first, the flag to `VF` second, so with `x = F` the flag
stands (42_alu.md R173, R21). -/
def State.setResultFlag (s : State) (x : RegIdx) (result flag : Byte) : State :=
  (s.setV x result).setV regF flag

/-- `I <- w` (R22). -/
def State.setI (s : State) (w : Word) : State := { s with i := w }

/-- `DT <- b` (R25). -/
def State.setDt (s : State) (b : Byte) : State := { s with dt := b }

/-- `ST <- b` (R26). -/
def State.setSt (s : State) (b : Byte) : State := { s with st := b }

/-- `mem` replaced. -/
def State.setMem (s : State) (m : List Host.Cell) : State := { s with mem := m }

/-- The driver's pending requests replaced (log 2). -/
def State.setSchedule (s : State) (ops : List HostOp) : State := { s with schedule := ops }

/-- `V[0..x] <- ` the bytes from address `base` up (45_timers_index_memory.md R238). -/
def State.loadV (s : State) (x : RegIdx) (base : Nat) : State :=
  { s with v := Vector.ofFn fun k => if k.val ≤ x.toNat then Memory.read s.mem (base + k.val) else s.v[k] }

/-- `V[0..x]` as bytes, `V[0]` first (R237). -/
def State.bytesV (s : State) (x : RegIdx) : List Byte := s.v.toList.take (x.toNat + 1)

/-- A fresh value of the free input `rnd` (R34, R8 `draw rnd`), and the state that has drawn it. -/
def State.drawRnd (s : State) : Byte × State :=
  (Config.rnd s.rndCount, { s with rndCount := s.rndCount + 1 })

/-! ### Call stack (10_state.md R24) -/

/-- Push, legal when `SP < 16`. -/
def State.push (s : State) (w : Word) (h : s.sp.val < 16) : State :=
  { s with stack := s.stack.set s.sp.val w h, sp := ⟨s.sp.val + 1, by omega⟩ }

/-- Pop, legal when `SP > 0`; the slot keeps its contents. -/
def State.pop (s : State) (_h : 0 < s.sp.val) : State :=
  { s with sp := ⟨s.sp.val - 1, by omega⟩ }

/-- The most recent live return address, `stack[SP-1]`. -/
def State.top (s : State) (h : 0 < s.sp.val) : Word := s.stack[s.sp.val - 1]'(by omega)

/-! ### Framebuffer (10_state.md R27, 43_display.md R190) -/

/-- `fb[r][c]`; false outside the grid, which no rule reads. -/
def pixel (fb : Vector (BitVec 64) 32) (r c : Nat) : Bool :=
  if h : r < 32 then fb[r].getLsbD c else false

/-- `fb[r][c] <- fb[r][c] ^ 1`. -/
def flipPixel (fb : Vector (BitVec 64) 32) (r c : Nat) : Vector (BitVec 64) 32 :=
  if h : r < 32 then fb.set r (fb[r] ^^^ BitVec.twoPow 64 c) h else fb

/-- The framebuffer replaced and `DP <- 1` (R191, R192). -/
def State.drawn (s : State) (fb : Vector (BitVec 64) 32) : State := { s with fb := fb, dp := true }

/-! ### The end of a cycle (40_operations.md R121, R122); each but a wait writes `WK <- 0` (log 30) -/

/-- Sequential: `PC <- PC + 2`. -/
def State.advance (s : State) : State := { s with pc := s.pc + 2#16, wk := false }

/-- Conditional skip: `PC <- PC + 4` if the condition holds, else `PC + 2` (41_control_flow.md R146). -/
def State.skipIf (s : State) (condition : Bool) : State :=
  { s with pc := if condition then s.pc + 4#16 else s.pc + 2#16, wk := false }

/-- Jump, call and return: `PC` set directly, no trailing `+2`. -/
def State.jumpTo (s : State) (target : Word) : State := { s with pc := target, wk := false }

/-- A waiting `Fx0A`: only `WK <- 1` (44_keypad.md R213). -/
def State.waitHere (s : State) : State := { s with wk := true }

/-- The unknown-opcode report (60_exceptions.md R302). -/
def State.reportUnknown (s : State) (op : Word) : State :=
  { s with pc := s.pc + 2#16, wk := false, unk := true, events := .unknownOpcode s.pc op :: s.events }

/-! ### Faults -/

/-- The 3-bit code of a cause (R301). -/
def FaultCause.code : FaultCause → BitVec 3
  | .noFault => 0
  | .stackOverflow => 1
  | .stackUnderflow => 2
  | .fetchOutOfRange => 3
  | .dataOutOfRange => 4
  | .indexOutOfRange => 5

/-- Fault entry (60_exceptions.md R308): `FC <- code`, one event, and nothing else; `PC` keeps the
address of the instruction. -/
def State.raise (s : State) (cause : FaultCause) : State :=
  { s with fc := cause, events := .fault cause s.pc :: s.events }

/-- The operation `Reset` (70_reset_and_hazards.md R340), the only way out of a fault (R310). The
model's own fields are not hardware state and stay (log 7). -/
def State.resetAll (s : State) : State :=
  { State.reset with rndCount := s.rndCount, schedule := s.schedule, events := s.events }

/-! ### Fetch (20_memory.md R64, R68) -/

/-- The opcode at `PC`, or none where `PC + 1 > 0xFFF`. -/
def State.fetch (s : State) : Option Word :=
  if Config.memSize ≤ s.pc.toNat + 1 then none
  else some (assembleOpcode (Memory.read s.mem s.pc.toNat) (Memory.read s.mem (s.pc.toNat + 1)))

/-- Where a fetch word is placed: at `PC`, or at `PROG_BASE` where the fetch at `PC` would fault (log 3). -/
def State.fetchPlace (s : State) : Word :=
  if Config.memSize ≤ s.pc.toNat + 1 then Config.pcReset else s.pc

/-- The opcode `op` placed so that the very next `RunCycle` fetches it: no other operation pending, the
core not halted, `PC` at a place that can be fetched (log 3). -/
def State.placeOpcode (s : State) (op : Word) : State :=
  { s with
    pc := s.fetchPlace
    mem := Memory.writeBytes s.mem s.fetchPlace.toNat [opcodeHigh op, opcodeLow op]
    fc := .noFault
    schedule := [] }

end Sys2Proof.Machine
end

