-- ==== Sys2Proof/Machine/Operands.lean ====
section
/-! DEFINITION. The operand forms (spec/30_encoding.md R94): immediates as they stand, the shift operand (42_alu.md R168, R170), key selection and rising edges (44_keypad.md R210, R214), sprite bits (43_display.md R193 to R195), the glyph address and decimal digits (45_timers_index_memory.md R235, R236). Registers are read by State.getV. -/

namespace Sys2Proof.Machine

/-- `zext_16(nnn)` (R94). -/
def zext16 (nnn : BitVec 12) : Word := nnn.setWidth 16

/-- The operand of `8xy6` and `8xyE`: `V[x]` (R168, R170, D11; log 10). -/
def shiftOperand (x y : RegIdx) (s : State) : Byte :=
  match Params.shiftSrc with
  | .x => s.getV x
  | .y => s.getV y

/-- The key `V[x]` selects: its low four bits (R210, D16; log 13). -/
def selectedKey (b : Byte) : BitVec 4 := b.extractLsb' 0 4

/-- Whether a key is currently down (R210). -/
def State.keyDown (s : State) (k : BitVec 4) : Bool := s.keyCur.getLsbD k.toNat

/-- `rising = key_cur & ~key_prev` (R214). -/
def State.rising (s : State) : Word := s.keyCur &&& ~~~s.keyPrev

/-- The least key with its bit set (R213, D15; log 12). -/
def leastKey (keys : Word) : Option Nat := (List.range 16).find? fun k => keys.getLsbD k

/-- The bit of a sprite byte drawn at column offset `c`: bit 7 is the leftmost (R193; log 11). -/
def spriteBit (b : Byte) (c : Nat) : Bool :=
  if Params.spriteMsbLeft then b.getLsbD (7 - c) else b.getLsbD c

/-- The column of sprite bit offset `c`: `(V[x] + c) mod 64` (R194). -/
def spriteColumn (x0 : Byte) (c : Nat) : Nat := (x0.toNat + c) % Config.fbWidth

/-- The row of sprite row `r`: the natural number `V[y] + r`, not reduced (R195; log 19). -/
def spriteRow (y0 : Byte) (r : Nat) : Nat := y0.toNat + r

/-- `FX29_BASE + 5·V[x]` (R235; log 9). -/
def glyphAddress (b : Byte) : Word := BitVec.ofNat 16 (Params.fx29Base + 5 * b.toNat)

/-- The decimal digits of a byte: hundreds, tens, ones (R236). -/
def decimalDigits (b : Byte) : List Byte :=
  [BitVec.ofNat 8 (b.toNat / 100), BitVec.ofNat 8 (b.toNat / 10 % 10), BitVec.ofNat 8 (b.toNat % 10)]

end Sys2Proof.Machine
end

