-- ==== Sys2Proof/Machine/Flags.lean ====
section
/-! DEFINITION. Results and flags of the ALU, on natural numbers (spec/42_alu.md R172, spec/00_scope.md R9). The collision flag of `Dxyn` comes from the draw itself (Display.lean). -/

namespace Sys2Proof.Machine

/-- A flag value: 0 or 1, zero-extended to 8 bits (10_state.md R21). -/
def flagByte (flag : Bool) : Byte := if flag then 0x01#8 else 0x00#8

/-- The sum modulo 256 (R172). -/
def sumByte (a b : Byte) : Byte := BitVec.ofNat 8 ((a.toNat + b.toNat) % 256)

/-- Carry: the true sum exceeds 255 (R172). -/
def carry (a b : Byte) : Bool := 255 < a.toNat + b.toNat

/-- `(a − b) mod 256`: `a − b` when `a ≥ b`, `a − b + 256` otherwise (R172). -/
def diffByte (a b : Byte) : Byte :=
  BitVec.ofNat 8 (if b.toNat ≤ a.toNat then a.toNat - b.toNat else a.toNat + 256 - b.toNat)

/-- Not-borrow of `a − b`: `a ≥ b`, equality included (R172, D30; log 16). -/
def notBorrow (a b : Byte) : Bool := b.toNat ≤ a.toNat

/-- `a >> 1` (R168). -/
def shrByte (a : Byte) : Byte := BitVec.ofNat 8 (a.toNat >>> 1)

/-- The bit a right shift drops: bit 0 (R168). -/
def droppedRight (a : Byte) : Bool := a.getLsbD 0

/-- `(a << 1) mod 256` (R170). -/
def shlByte (a : Byte) : Byte := BitVec.ofNat 8 ((a.toNat <<< 1) % 256)

/-- The bit a left shift drops: bit 7 (R170). -/
def droppedLeft (a : Byte) : Bool := a.getLsbD 7

end Sys2Proof.Machine
end

