-- ==== Sys2Proof/Machine/Alu.lean ====
section
/-! DEFINITION. The meanings of the register load, arithmetic, logic, shift and random instructions (spec/42_alu.md). -/

namespace Sys2Proof.Machine

/-- `6xnn` (R160). -/
def exec6xnn (x : RegIdx) (nn : Byte) (s : State) : Result := .next (s.setV x nn).advance

/-- `7xnn` (R161): 8-bit wraparound, no flag effect. -/
def exec7xnn (x : RegIdx) (nn : Byte) (s : State) : Result :=
  .next (s.setV x (sumByte (s.getV x) nn)).advance

/-- `8xy0` (R162). -/
def exec8xy0 (x y : RegIdx) (s : State) : Result := .next (s.setV x (s.getV y)).advance

/-- `8xy1` (R163). -/
def exec8xy1 (x y : RegIdx) (s : State) : Result := .next (s.setV x (s.getV x ||| s.getV y)).advance

/-- `8xy2` (R164). -/
def exec8xy2 (x y : RegIdx) (s : State) : Result := .next (s.setV x (s.getV x &&& s.getV y)).advance

/-- `8xy3` (R165). -/
def exec8xy3 (x y : RegIdx) (s : State) : Result := .next (s.setV x (s.getV x ^^^ s.getV y)).advance

/-- `8xy4` (R166): sum and carry. -/
def exec8xy4 (x y : RegIdx) (s : State) : Result :=
  .next (s.setResultFlag x (sumByte (s.getV x) (s.getV y)) (flagByte (carry (s.getV x) (s.getV y)))).advance

/-- `8xy5` (R167): `Vx − Vy` and not-borrow. -/
def exec8xy5 (x y : RegIdx) (s : State) : Result :=
  .next (s.setResultFlag x (diffByte (s.getV x) (s.getV y))
    (flagByte (notBorrow (s.getV x) (s.getV y)))).advance

/-- `8xy6` (R168): shift right, the dropped bit to `VF`. -/
def exec8xy6 (x y : RegIdx) (s : State) : Result :=
  .next (s.setResultFlag x (shrByte (shiftOperand x y s)) (flagByte (droppedRight (shiftOperand x y s)))).advance

/-- `8xy7` (R169; log 15): `Vy − Vx` and not-borrow. -/
def exec8xy7 (x y : RegIdx) (s : State) : Result :=
  .next (s.setResultFlag x (diffByte (s.getV y) (s.getV x))
    (flagByte (notBorrow (s.getV y) (s.getV x)))).advance

/-- `8xyE` (R170): shift left, the dropped bit to `VF`. -/
def exec8xyE (x y : RegIdx) (s : State) : Result :=
  .next (s.setResultFlag x (shlByte (shiftOperand x y s)) (flagByte (droppedLeft (shiftOperand x y s)))).advance

/-- `Cxnn` (R171): a fresh value of the free input `rnd`, masked (log 4). -/
def execCxnn (x : RegIdx) (nn : Byte) (s : State) : Result :=
  .next (s.drawRnd.2.setV x (s.drawRnd.1 &&& nn)).advance

end Sys2Proof.Machine
end

