-- ==== Sys2Proof/Machine/Control.lean ====
section
/-! DEFINITION. The meanings of the control transfer instructions (spec/41_control_flow.md). -/

namespace Sys2Proof.Machine

/-- `00EE` (R140): fault on an empty stack, else `PC` takes the popped value as it is. -/
def exec00EE (s : State) : Result :=
  if h : 0 < s.sp.val then .next ((s.pop h).jumpTo (s.top h)) else .next (s.raise .stackUnderflow)

/-- `1nnn` (R141). -/
def exec1nnn (nnn : BitVec 12) (s : State) : Result := .next (s.jumpTo (zext16 nnn))

/-- `2nnn` (R142): fault on a full stack, else push `PC + 2` and jump. -/
def exec2nnn (nnn : BitVec 12) (s : State) : Result :=
  if h : s.sp.val < 16 then .next ((s.push (s.pc + 2#16) h).jumpTo (zext16 nnn))
  else .next (s.raise .stackOverflow)

/-- `3xnn` (R143). -/
def exec3xnn (x : RegIdx) (nn : Byte) (s : State) : Result := .next (s.skipIf (s.getV x = nn))

/-- `4xnn` (R144). -/
def exec4xnn (x : RegIdx) (nn : Byte) (s : State) : Result := .next (s.skipIf (s.getV x ≠ nn))

/-- `9xy0` (R145). -/
def exec9xy0 (x y : RegIdx) (s : State) : Result := .next (s.skipIf (s.getV x ≠ s.getV y))

end Sys2Proof.Machine
end

