-- ==== Sys2Proof/Machine/Display.lean ====
section
/-! DEFINITION. The framebuffer rasterizer and the meanings of the display instructions (spec/43_display.md). -/

namespace Sys2Proof.Machine

/-- A draw under way: the framebuffer so far and the collision flag `hit` so far. -/
structure Drawing where
  fb : Vector (BitVec 64) 32
  hit : Bool
  deriving DecidableEq, Repr

/-- The pseudocode's innermost body (R192): a set sprite bit XORs its pixel and notes a collision. -/
def drawBit (x0 : Byte) (row : Nat) (b : Byte) (d : Drawing) (c : Nat) : Drawing :=
  if spriteBit b c then
    { fb := flipPixel d.fb row (spriteColumn x0 c)
      hit := d.hit || pixel d.fb row (spriteColumn x0 c) }
  else d

/-- One sprite row: clipped whole at row 32 and beyond, else its eight bits (R192, R195). -/
def drawSpriteRow (mem : List Host.Cell) (x0 y0 : Byte) (base : Nat) (d : Drawing) (r : Nat) : Drawing :=
  if Config.fbHeight ≤ spriteRow y0 r then d
  else (List.range 8).foldl (drawBit x0 (spriteRow y0 r) (Memory.read mem (base + r))) d

/-- The `n` rows of a sprite (R192). -/
def drawSprite (mem : List Host.Cell) (x0 y0 : Byte) (base n : Nat) (fb : Vector (BitVec 64) 32) : Drawing :=
  (List.range n).foldl (drawSpriteRow mem x0 y0 base) { fb := fb, hit := false }

/-- `00E0` (R191). -/
def exec00E0 (s : State) : Result := .next (s.drawn (Vector.replicate 32 0#64)).advance

/-- `Dxyn` (R192, R197): operands read first, the whole range checked before any change. -/
def execDxyn (x y : RegIdx) (n : BitVec 4) (s : State) : Result :=
  if rangePassesEnd s.i.toNat n.toNat then .next (s.raise .dataOutOfRange)
  else
    let d := drawSprite s.mem (s.getV x) (s.getV y) s.i.toNat n.toNat s.fb
    .next ((s.setV regF (flagByte d.hit)).drawn d.fb).advance

end Sys2Proof.Machine
end

