-- ==== Sys2Proof/Machine/Keypad.lean ====
section
/-! DEFINITION. The meanings of the keypad instructions (spec/44_keypad.md). -/

namespace Sys2Proof.Machine

/-- `Ex9E` (R211). -/
def execEx9E (x : RegIdx) (s : State) : Result := .next (s.skipIf (s.keyDown (selectedKey (s.getV x))))

/-- `ExA1` (R212). -/
def execExA1 (x : RegIdx) (s : State) : Result := .next (s.skipIf (!s.keyDown (selectedKey (s.getV x))))

/-- `Fx0A` (R213): wait while no key rises, else the least rising key. -/
def execFx0A (x : RegIdx) (s : State) : Result :=
  match leastKey s.rising with
  | none => .next s.waitHere
  | some k => .next (s.setV x (BitVec.ofNat 8 k)).advance

end Sys2Proof.Machine
end

