-- ==== Sys2Proof/Machine/TimerIndex.lean ====
section
/-! DEFINITION. The meanings of the timer and index instructions (spec/45_timers_index_memory.md sections 1 and 2). -/

namespace Sys2Proof.Machine

/-- `Fx07` (R230; log 14). -/
def execFx07 (x : RegIdx) (s : State) : Result := .next (s.setV x s.dt).advance

/-- `Fx15` (R231; log 14). -/
def execFx15 (x : RegIdx) (s : State) : Result := .next (s.setDt (s.getV x)).advance

/-- `Fx18` (R232; log 14). -/
def execFx18 (x : RegIdx) (s : State) : Result := .next (s.setSt (s.getV x)).advance

/-- `Annn` (R233). -/
def execAnnn (nnn : BitVec 12) (s : State) : Result := .next (s.setI (zext16 nnn)).advance

/-- `Fx1E` (R234): fault where the natural sum exceeds 0xFFF. -/
def execFx1E (x : RegIdx) (s : State) : Result :=
  if Config.memSize ≤ s.i.toNat + (s.getV x).toNat then .next (s.raise .indexOutOfRange)
  else .next (s.setI (BitVec.ofNat 16 (s.i.toNat + (s.getV x).toNat))).advance

/-- `Fx29` (R235). -/
def execFx29 (x : RegIdx) (s : State) : Result := .next (s.setI (glyphAddress (s.getV x))).advance

end Sys2Proof.Machine
end

