-- ==== Sys2Proof/Machine/Transfer.lean ====
section
/-! DEFINITION. The meanings of the memory transfers (spec/45_timers_index_memory.md section 3): the bounds check first, `I` unchanged. -/

namespace Sys2Proof.Machine

/-- `Fx33` (R236). -/
def execFx33 (x : RegIdx) (s : State) : Result :=
  if rangePassesEnd s.i.toNat 3 then .next (s.raise .dataOutOfRange)
  else .next (s.setMem (Memory.writeBytes s.mem s.i.toNat (decimalDigits (s.getV x)))).advance

/-- `Fx55` (R237). -/
def execFx55 (x : RegIdx) (s : State) : Result :=
  if rangePassesEnd s.i.toNat (x.toNat + 1) then .next (s.raise .dataOutOfRange)
  else .next (s.setMem (Memory.writeBytes s.mem s.i.toNat (s.bytesV x))).advance

/-- `Fx65` (R238). -/
def execFx65 (x : RegIdx) (s : State) : Result :=
  if rangePassesEnd s.i.toNat (x.toNat + 1) then .next (s.raise .dataOutOfRange)
  else .next (s.loadV x s.i.toNat).advance

end Sys2Proof.Machine
end

