-- ==== Sys2Proof/Machine/HostOps.lean ====
section
/-! DEFINITION. The operations of the block other than RunCycle and Reset, the host's reads, and coinciding requests (spec/40_operations.md). -/

namespace Sys2Proof.Machine

/-- One timer's step: down by 1 unless it is 0 (R123). -/
def timerStep (b : Byte) : Byte := if b = 0x00#8 then b else b - 0x01#8

/-- `TickTimers` (R123). -/
def State.tickTimers (s : State) : State := { s with dt := timerStep s.dt, st := timerStep s.st }

/-- `KeyUpdate(s)` (R124): the latch shifts. -/
def State.keyUpdate (s : State) (snapshot : Word) : State :=
  { s with keyPrev := s.keyCur, keyCur := snapshot }

/-- `DrawAck` (R125). -/
def State.drawAck (s : State) : State := { s with dp := false }

/-- Whether a ROM of this length is too large (R126): `len + 0x200 > 4096`. -/
def romTooLarge (len : Nat) : Bool := Config.memSize < len + Config.progBase

/-- `LoadROM(bytes)` (R126, R313): too large: no state changes; else the bytes go to 0x200 and up. The
answer is an event. -/
def State.loadROM (s : State) (bytes : List Byte) : State :=
  if romTooLarge bytes.length then { s with events := .romTooLarge :: s.events }
  else { s with mem := Memory.writeBytes s.mem Config.progBase bytes, events := .romOk :: s.events }

/-- The host's read of the framebuffer: the byte 0 or 1 at linear index `64·r + c` (R127, 10_state.md R27). -/
def State.hostPixel (s : State) (index : Nat) : Byte :=
  if pixel s.fb (index / Config.fbWidth) (index % Config.fbWidth) then 0x01#8 else 0x00#8

/-- The status word the host reads (10_state.md R35): bits 0 `DP`, 1 `WK`, 2 `UNK`, 5:3 `FC`, 7:6 zero. -/
def State.statusWord (s : State) : Byte :=
  0#2 ++ (s.fc.code ++ (BitVec.ofBool s.unk ++ (BitVec.ofBool s.wk ++ BitVec.ofBool s.dp : BitVec 2) : BitVec 3) : BitVec 6)

/-- The request strobes of one clock (R128). -/
structure Strobes where
  reset : Bool
  drawAck : Bool
  keyUpdate : Option Word
  tickTimers : Bool
  runCycle : Bool
  deriving DecidableEq, Repr

/-- The operations a clock's strobes perform, in order: DrawAck, KeyUpdate, TickTimers, RunCycle; Reset
overrides every other request (R128, D21; log 32). -/
def Strobes.operations (q : Strobes) : List HostOp :=
  if q.reset then [.reset]
  else
    (if q.drawAck then [.drawAck] else []) ++ (q.keyUpdate.map HostOp.keyUpdate).toList ++
      (if q.tickTimers then [.tickTimers] else []) ++ (if q.runCycle then [.runCycle] else [])

/-- The driver requests operations after those already pending. -/
def State.request (s : State) (ops : List HostOp) : State := s.setSchedule (s.schedule ++ ops)

end Sys2Proof.Machine
end

