-- ==== Sys2Proof/Machine/RunCycle.lean ====
section
/-! DEFINITION. RunCycle (spec/40_operations.md R121) and the performing of one requested operation (R120). -/

namespace Sys2Proof.Machine

/-- A fetched opcode, run: one instruction, or the unknown-opcode report (R121, R311). -/
def runOpcode (op : Word) (s : State) : Result :=
  match decode op with
  | .ok i => exec i s
  | .error _ => .next (s.reportUnknown op)

/-- `RunCycle` (R121), in the order of R311: halted, fetch fault, unknown opcode, instruction. -/
def runCycle (s : State) : Result :=
  if s.fc ≠ .noFault then .next s
  else
    match s.fetch with
    | none => .next (s.raise .fetchOutOfRange)
    | some op => runOpcode op s

/-- One operation of the block (R120). -/
def performOp (op : HostOp) (s : State) : Result :=
  match op with
  | .reset => .next s.resetAll
  | .loadROM bytes => .next (s.loadROM bytes)
  | .runCycle => runCycle s
  | .tickTimers => .next s.tickTimers
  | .keyUpdate snapshot => .next (s.keyUpdate snapshot)
  | .drawAck => .next s.drawAck

/-- The next operation: the oldest one the driver has requested, and `RunCycle` where none is (log 2). -/
def nextOperation (s : State) : Result :=
  match s.schedule with
  | [] => runCycle s
  | op :: rest => performOp op (s.setSchedule rest)

end Sys2Proof.Machine
end

