-- ==== Sys2Proof/Machine/Step.lean ====
section
/-! DEFINITION. The step, and the placing of an instruction where the step fetches. -/

namespace Sys2Proof.Machine

/-- One step: one atomic operation (spec/40_operations.md R120; log 2). -/
def step (s : State) : Host.Outcome State Fault Refusal := nextOperation s

/-- `s` with an instruction of the opcode table stored where the very next step fetches it (log 3). -/
def State.withFetchWord (s : State) (nbits w : Nat) : State := s.placeOpcode (tableWord nbits w)

end Sys2Proof.Machine
end

