-- ==== Sys2Proof/Safety.lean ====
section
/-! DEFINITION. What claims are stated in: frames, the machine's invariant (spec/10_state.md R37), fault entry as a relation (spec/60_exceptions.md R308), who may write what (R38), where PC goes (spec/40_operations.md R122), a safe run and its end. -/

namespace Sys2Proof.Machine

/-! ### Frames -/

/-- The pieces of State. -/
inductive Piece where
  | v | i | pc | stack | sp | dt | st | mem | fb | dp | keyCur | keyPrev | wk | unk | fc
  | rndCount | schedule | events
  deriving DecidableEq, Repr

/-- A piece reads the same in both states: registers one by one, memory byte by byte, the framebuffer
pixel by pixel. -/
def Piece.Same : Piece → State → State → Prop
  | .v, s, t => ∀ k : RegIdx, t.getV k = s.getV k
  | .i, s, t => t.i = s.i
  | .pc, s, t => t.pc = s.pc
  | .stack, s, t => ∀ k : Fin 16, t.stack[k] = s.stack[k]
  | .sp, s, t => t.sp = s.sp
  | .dt, s, t => t.dt = s.dt
  | .st, s, t => t.st = s.st
  | .mem, s, t => ∀ a : Nat, Memory.read t.mem a = Memory.read s.mem a
  | .fb, s, t => ∀ r c : Nat, pixel t.fb r c = pixel s.fb r c
  | .dp, s, t => t.dp = s.dp
  | .keyCur, s, t => t.keyCur = s.keyCur
  | .keyPrev, s, t => t.keyPrev = s.keyPrev
  | .wk, s, t => t.wk = s.wk
  | .unk, s, t => t.unk = s.unk
  | .fc, s, t => t.fc = s.fc
  | .rndCount, s, t => t.rndCount = s.rndCount
  | .schedule, s, t => t.schedule = s.schedule
  | .events, s, t => t.events = s.events

/-- Every piece but those listed is unchanged from `s` to `t`. -/
def ChangesOnly (changed : List Piece) (s t : State) : Prop := ∀ p : Piece, p ∉ changed → p.Same s t

/-- Every register but those listed is unchanged. -/
def RegsSameBut (changed : List RegIdx) (s t : State) : Prop :=
  ∀ k : RegIdx, k ∉ changed → t.getV k = s.getV k

/-- Every byte of memory outside the `len` bytes from `base` reads as before. -/
def MemSameOutside (base len : Nat) (s t : State) : Prop :=
  ∀ a : Nat, a < base ∨ base + len ≤ a → Memory.read t.mem a = Memory.read s.mem a

/-- The pieces that are the hardware's, not the model's own (INVENTORY.md, State). -/
def Piece.isHardware : Piece → Bool
  | .rndCount | .schedule | .events => false
  | _ => true

/-! ### Faults -/

/-- Fault entry (R308): `FC` is the cause, one event carries the cause and `PC`, nothing else changes. -/
def EntersFault (cause : FaultCause) (s t : State) : Prop :=
  t.fc = cause ∧ t.events = .fault cause s.pc :: s.events ∧ ChangesOnly [.fc, .events] s t

/-- The one fault an instruction can raise, if any (R301, R311). -/
def faultOf : Instr → Option FaultCause
  | .op00EE => some .stackUnderflow
  | .op2nnn _ => some .stackOverflow
  | .opFx1E _ => some .indexOutOfRange
  | .opDxyn _ _ _ | .opFx33 _ | .opFx55 _ | .opFx65 _ => some .dataOutOfRange
  | _ => none

/-! ### Steps that are cycles -/

/-- The step at `s` is a `RunCycle`, run at `s'`: nothing is requested and `s'` is `s` (log 2), or `RunCycle` is
the oldest request (40_operations.md R120) and `s'` is `s` with it taken off. -/
def CycleRunsFrom (s s' : State) : Prop :=
  (s.schedule = [] ∧ s' = s) ∨ ∃ rest, s.schedule = .runCycle :: rest ∧ s' = s.setSchedule rest

/-! ### Whole-machine rules -/

/-- The invariant (R37): memory in canonical form, `I ≤ 0x0FFF`, `PC ≤ 0x1002`, every live stack slot at
most 0x1000. `SP ≤ 16` and pixel values 0 or 1 hold by the types. -/
def MachineInv (s : State) : Prop :=
  Memory.wf s.mem = true ∧ s.i.toNat ≤ 0x0FFF ∧ s.pc.toNat ≤ 0x1002 ∧
    ∀ k : Fin 16, k.val < s.sp.val → (s.stack[k]).toNat ≤ 0x1000

/-- The pieces an instruction may write beside `PC` and `WK` and, by fault entry, `FC` and the events: the
access matrix R38, column "written by", read row by row. -/
def writtenPieces : Instr → List Piece
  | .op00E0 => [.fb, .dp]
  | .op00EE => [.sp]
  | .op2nnn _ => [.stack, .sp]
  | .op1nnn _ | .op3xnn _ _ | .op4xnn _ _ | .op9xy0 _ _ | .opEx9E _ | .opExA1 _ => []
  | .op6xnn _ _ | .op7xnn _ _ | .op8xy0 _ _ | .op8xy1 _ _ | .op8xy2 _ _ | .op8xy3 _ _ | .op8xy4 _ _
  | .op8xy5 _ _ | .op8xy6 _ _ | .op8xy7 _ _ | .op8xyE _ _ | .opFx07 _ | .opFx0A _ | .opFx65 _ => [.v]
  | .opCxnn _ _ => [.v, .rndCount]
  | .opDxyn _ _ _ => [.v, .fb, .dp]
  | .opAnnn _ | .opFx1E _ | .opFx29 _ => [.i]
  | .opFx15 _ => [.dt]
  | .opFx18 _ => [.st]
  | .opFx33 _ | .opFx55 _ => [.mem]

/-- Everything an instruction may write (the access matrix R38). -/
def mayWrite (i : Instr) : List Piece :=
  [.pc, .wk] ++ writtenPieces i ++ if (faultOf i).isSome then [.fc, .events] else []

/-- The instructions that write `VF` as a flag (42_alu.md R174, 10_state.md R21). -/
def writesFlag : Instr → Bool
  | .op8xy4 _ _ | .op8xy5 _ _ | .op8xy6 _ _ | .op8xy7 _ _ | .op8xyE _ _ | .opDxyn _ _ _ => true
  | _ => false

/-- The registers an instruction names as its destination through `x` (R38, R174); `Fx65` names a range. -/
def destinations : Instr → RegIdx → Bool
  | .op6xnn x _, k | .op7xnn x _, k | .op8xy0 x _, k | .op8xy1 x _, k | .op8xy2 x _, k
  | .op8xy3 x _, k | .op8xy4 x _, k | .op8xy5 x _, k | .op8xy6 x _, k | .op8xy7 x _, k
  | .op8xyE x _, k | .opCxnn x _, k | .opFx07 x, k | .opFx0A x, k => k = x
  | .opFx65 x, k => k.toNat ≤ x.toNat
  | _, _ => false

/-- How many bytes an instruction stores from `mem[I]` up (20_memory.md R67). -/
def storedLength : Instr → Nat
  | .opFx33 _ => 3
  | .opFx55 x => x.toNat + 1
  | _ => 0

/-- The opcode at `PC` as a number: `256·mem[PC] + mem[PC+1]` (20_memory.md R64). -/
def opcodeAt (s : State) : Word :=
  BitVec.ofNat 16 (256 * (Memory.read s.mem s.pc.toNat).toNat + (Memory.read s.mem (s.pc.toNat + 1)).toNat)

/-- Whether key `k` has a rising edge (44_keypad.md R214). -/
def risesAt (s : State) (k : Nat) : Prop := s.keyPrev.getLsbD k = false ∧ s.keyCur.getLsbD k = true

/-- Whether a conditional skip's condition holds (R143 to R145, R211, R212); false of every other
instruction. The key is `V[x] mod 16` (R210). -/
def skips (s : State) : Instr → Bool
  | .op3xnn x nn => s.getV x = nn
  | .op4xnn x nn => s.getV x ≠ nn
  | .op9xy0 x y => s.getV x ≠ s.getV y
  | .opEx9E x => s.keyCur.getLsbD ((s.getV x).toNat % 16)
  | .opExA1 x => !s.keyCur.getLsbD ((s.getV x).toNat % 16)
  | _ => false

/-- `PC` after an instruction that completes from `s` to `t` (R122), on numbers; a call has pushed `PC + 2`. -/
def PcAfter (s t : State) (i : Instr) : Prop :=
  match i with
  | .op1nnn nnn => t.pc.toNat = nnn.toNat
  | .op2nnn nnn =>
    t.pc.toNat = nnn.toNat ∧ ∃ h : s.sp.val < 16, (t.stack[s.sp.val]).toNat = s.pc.toNat + 2
  | .op00EE => ∃ h : 0 < s.sp.val, t.pc = s.stack[s.sp.val - 1]'(by omega)
  | .opFx0A _ =>
    ((∃ k, k < 16 ∧ risesAt s k) → t.pc.toNat = s.pc.toNat + 2) ∧
      ((∀ k, k < 16 → ¬risesAt s k) → t.pc.toNat = s.pc.toNat)
  | i => t.pc.toNat = if skips s i then s.pc.toNat + 4 else s.pc.toNat + 2

/-! ### Drawing (43_display.md R192 to R195) -/

/-- Whether a sprite of `n` rows at column `x0`, row `y0` has a set bit on pixel (`r`, `c`): sprite row `j`
lies on row `y0 + j`, not reduced, and its bit `7 − b` on column `(x0 + b) mod 64`. -/
def SpriteCovers (s : State) (x0 y0 n r c : Nat) : Prop :=
  ∃ j b : Nat, j < n ∧ b < 8 ∧ y0 + j = r ∧ (x0 + b) % 64 = c ∧
    (Memory.read s.mem (s.i.toNat + j)).getLsbD (7 - b) = true

/-! ### What a program cannot see (10_state.md R39) -/

/-- The two states agree on everything but `ST`, `DP`, `WK`, `UNK` and what was emitted to the host. -/
def SameToPrograms (s t : State) : Prop := ChangesOnly [.st, .dp, .wk, .unk, .events] s t

/-! ### Safe runs -/

/-- A run has not gone wrong: no fault (R309) and no unknown opcode reported (93_implementation_defined.md
U9; log 18, log 28). -/
def Good (s : State) : Prop := s.fc = .noFault ∧ s.unk = false

/-- The end of a run (U18, R355; log 28): `PC` at a `1nnn` that targets itself, nothing gone wrong. -/
def Finished (s : State) : Prop :=
  Good s ∧ s.pc.toNat + 1 ≤ 0xFFF ∧ ∃ nnn, decode (opcodeAt s) = .ok (.op1nnn nnn) ∧ nnn.toNat = s.pc.toNat

end Sys2Proof.Machine
end

