-- ==== Sys2Proof/Certificates/Slice0/Obligations.lean ====
section
/-! DEFINITION. The statements for the provers, in the order of OBLIGATIONS.json. Where one rests on a decision the spec marks as its own (92_eei_decisions.md D<n>) or on a log entry, its docstring says so. -/

open Sys2Proof Sys2Proof.Machine

/-! ### Encoding -/

/-- 30_encoding.md sections 1 to 6: two bytes are consumed, and every operand value survives. -/
def Obligations.DecodeOfEncodeIsIdentity : Prop :=
  ∀ (i : Instr) (rest : List Byte), i.wf = true → decodeBytes (encodeBytes i ++ rest) = .ok (i, rest)

/-- 30_encoding.md sections 5 and 6: each recognised word has one meaning, and no bit of it is dropped. -/
def Obligations.EncodeOfDecodeIsIdentity : Prop :=
  ∀ (op : Word) (i : Instr), decode op = .ok i → encode i = op

/-- 30_encoding.md section 5: the decoder recognises exactly the words of the table's rows, each as its row's
instruction (literal matching is the spec's decision D17). -/
def Obligations.DecodeAgreesWithOpcodeTable : Prop :=
  (∀ (op : Word) (i : Instr), decode op = .ok i →
      i.row ∈ opcodeRows ∧ op &&& i.row.mask = i.row.pattern) ∧
    ∀ (op : Word) (row : Row), row ∈ opcodeRows → op &&& row.mask = row.pattern →
      ∃ i, decode op = .ok i ∧ i.row = row

/-- 30_encoding.md section 5: "No two rows overlap" (derived by the spec). -/
def Obligations.OpcodeRowsDoNotOverlap : Prop :=
  opcodeRows.Pairwise fun r q => ∀ op : Word, ¬(op &&& r.mask = r.pattern ∧ op &&& q.mask = q.pattern)

/-- 30_encoding.md section 7, the table of unrecognised words, on numbers (D17). -/
def Obligations.UnrecognisedWordsByFamily : Prop :=
  ∀ op : Word,
    (decode op = .error .family0 ↔ op.toNat / 4096 = 0 ∧ op.toNat ≠ 0x00E0 ∧ op.toNat ≠ 0x00EE) ∧
    (decode op = .error .family5 ↔ op.toNat / 4096 = 5) ∧
    (decode op = .error .family8 ↔
      op.toNat / 4096 = 8 ∧ op.toNat % 16 ∈ [0x8, 0x9, 0xA, 0xB, 0xC, 0xD, 0xF]) ∧
    (decode op = .error .family9 ↔ op.toNat / 4096 = 9 ∧ op.toNat % 16 ≠ 0) ∧
    (decode op = .error .familyB ↔ op.toNat / 4096 = 0xB) ∧
    (decode op = .error .familyE ↔ op.toNat / 4096 = 0xE ∧ op.toNat % 256 ∉ [0x9E, 0xA1]) ∧
    (decode op = .error .familyF ↔
      op.toNat / 4096 = 0xF ∧
        op.toNat % 256 ∉ [0x07, 0x0A, 0x15, 0x18, 0x1E, 0x29, 0x33, 0x55, 0x65]) ∧
    decode op ≠ .error .truncated

/-- 30_encoding.md sections 5 and 8: a word of each format, written out digit by digit. The last clause, that
`5120` is no instruction (section 7), is the spec's decision D17 (log 18). -/
def Obligations.WrittenWordsDecode : Prop :=
  decode 0x00EE#16 = .ok .op00EE ∧
    decode 0x2300#16 = .ok (.op2nnn 0x300#12) ∧
    decode 0x6A2F#16 = .ok (.op6xnn 0xA#4 0x2F#8) ∧
    decode 0x8127#16 = .ok (.op8xy7 0x1#4 0x2#4) ∧
    decode 0xD015#16 = .ok (.opDxyn 0x0#4 0x1#4 0x5#4) ∧
    decode 0xF265#16 = .ok (.opFx65 0x2#4) ∧
    decode 0x5120#16 = .error .family5

/-! ### One cycle -/

/-- 20_memory.md section 3, 40_operations.md section 2: a core that is not halted runs the big-endian word at
`PC`. That a step with nothing requested is a `RunCycle` is the model's choice (log 2). -/
def Obligations.StepRunsFetchedInstruction : Prop :=
  ∀ (s : State) (i : Instr), s.fc = .noFault → s.pc.toNat + 1 ≤ 0xFFF → decode (opcodeAt s) = .ok i →
    (s.schedule = [] → step s = exec i s) ∧
      ∀ rest, s.schedule = .runCycle :: rest → step s = exec i (s.setSchedule rest)

/-- 60_exceptions.md section 2: the unknown-opcode report, of a cycle that is requested or idle (log 2). Its form,
an event and a sticky bit, is the spec's decision D6 (log 18). -/
def Obligations.UnknownOpcodeIsReportedAndSkipped : Prop :=
  ∀ (s s' : State) (e : Unrecognised), CycleRunsFrom s s' → s.fc = .noFault → s.pc.toNat + 1 ≤ 0xFFF →
    decode (opcodeAt s) = .error e →
    ∃ t, step s = .next t ∧ t.pc.toNat = s.pc.toNat + 2 ∧ t.unk = true ∧ t.wk = false ∧
      t.events = .unknownOpcode s.pc (opcodeAt s) :: s.events ∧
      ChangesOnly [.pc, .unk, .wk, .events] s' t

/-- 20_memory.md section 6, 60_exceptions.md section 3: a fetch at `PC ≥ 0x0FFF`, of a cycle that is requested or
idle (log 2), is fault entry (decisions D3, D5; log 1). -/
def Obligations.FetchPastTheEndFaults : Prop :=
  ∀ s s' : State, CycleRunsFrom s s' → s.fc = .noFault → 0x0FFF ≤ s.pc.toNat →
    ∃ t, step s = .next t ∧ EntersFault .fetchOutOfRange s' t

/-- 60_exceptions.md section 3: a halted core's cycle changes nothing (decision D5). -/
def Obligations.HaltedCycleChangesNothing : Prop :=
  ∀ s : State, s.fc ≠ .noFault →
    (s.schedule = [] → step s = .next s) ∧
      ∀ rest, s.schedule = .runCycle :: rest → step s = .next (s.setSchedule rest)

/-- 40_operations.md section 2: how `PC` moves in a `RunCycle`, every row of the table: fault and halted (decision
D5; log 1); unknown opcodes (D17; log 18); the classes of instructions (`PcAfter`). The key of `Ex9E` and `ExA1` is
`V[x] mod 16` (D16; log 13), the slots of call and return are the spec's stack layout (D20; log 21), the pushed
value its reading C4 (log 31). -/
def Obligations.PcMovesByClass : Prop :=
  ∀ s t : State, runCycle s = .next t →
    (t.fc ≠ .noFault → t.pc = s.pc) ∧
      (t.fc = .noFault →
        (∀ i, decode (opcodeAt s) = .ok i → PcAfter s t i) ∧
          ∀ e, decode (opcodeAt s) = .error e → t.pc.toNat = s.pc.toNat + 2)

/-- 40_operations.md section 2: what a cycle that is not halted, requested or idle (log 2), writes to `WK`. The bit
itself is the spec's decision D26 (log 30). -/
def Obligations.CycleWritesAwaitingKey : Prop :=
  ∀ s s' t : State, CycleRunsFrom s s' → s.fc = .noFault → step s = .next t →
    (t.fc ≠ .noFault → t.wk = s.wk) ∧
      (t.fc = .noFault →
        (t.wk = true ↔
          ∃ x, decode (opcodeAt s) = .ok (.opFx0A x) ∧ ∀ k, k < 16 → ¬risesAt s k))

/-! ### The host's operations -/

/-- 40_operations.md section 3: both timers step, independently, also of a halted core (decision D5); a timer
that holds `v` reads 0 after exactly `v` ticks and stays there. -/
def Obligations.TickTimersCountsBothDown : Prop :=
  (∀ (s : State) (rest : List HostOp), s.schedule = .tickTimers :: rest →
      ∃ t, step s = .next t ∧ t.dt.toNat = s.dt.toNat - 1 ∧ t.st.toNat = s.st.toNat - 1 ∧
        t.schedule = rest ∧ ChangesOnly [.dt, .st, .schedule] s t) ∧
    ∀ (n : Nat) (s : State),
      (State.tickTimers^[n] s).dt.toNat = s.dt.toNat - n ∧
        (State.tickTimers^[n] s).st.toNat = s.st.toNat - n

/-- 40_operations.md section 4: the latch shifts (decision D22). -/
def Obligations.KeyUpdateShiftsTheLatch : Prop :=
  ∀ (s : State) (snapshot : Word) (rest : List HostOp), s.schedule = .keyUpdate snapshot :: rest →
    ∃ t, step s = .next t ∧ t.keyPrev = s.keyCur ∧ t.keyCur = snapshot ∧ t.schedule = rest ∧
      ChangesOnly [.keyPrev, .keyCur, .schedule] s t

/-- 40_operations.md R125. -/
def Obligations.DrawAckClearsDrawPending : Prop :=
  ∀ s : State, ∃ t, performOp .drawAck s = .next t ∧ t.dp = false ∧ ChangesOnly [.dp] s t

/-- 40_operations.md section 6: a ROM that is too large changes nothing, one that fits is copied from 0x200 up
and nothing else changes. A load at any time is the spec's decision D27; the answer is an event of the
model's (log 5). -/
def Obligations.LoadRomCopiesOrRefuses : Prop :=
  ∀ (s : State) (bytes : List Byte) (rest : List HostOp), s.schedule = .loadROM bytes :: rest →
    (4096 < bytes.length + 0x200 →
      ∃ t, step s = .next t ∧ t.events = .romTooLarge :: s.events ∧ t.schedule = rest ∧
        ChangesOnly [.events, .schedule] s t) ∧
      (bytes.length + 0x200 ≤ 4096 → Memory.wf s.mem = true →
        ∃ t, step s = .next t ∧ t.events = .romOk :: s.events ∧ t.schedule = rest ∧
          (∀ (k : Nat) (h : k < bytes.length), Memory.read t.mem (0x200 + k) = bytes[k]) ∧
          MemSameOutside 0x200 bytes.length s t ∧ ChangesOnly [.mem, .events, .schedule] s t)

/-- 70_reset_and_hazards.md section 1: Reset restores every piece of the hardware's, from any state, a halted
one included (decision D9); the model's own fields stay (log 7). -/
def Obligations.ResetRestoresEverything : Prop :=
  ∀ (s : State) (rest : List HostOp), s.schedule = .reset :: rest →
    ∃ t, step s = .next t ∧ (∀ p : Piece, p.isHardware = true → p.Same State.reset t) ∧
      t.rndCount = s.rndCount ∧ t.schedule = rest ∧ t.events = s.events

/-- 10_state.md section 12, the table of reset values. Those of `V`, `I`, `DP`, `WK`, `UNK`, `FC` are the spec's
decision D8 (log 6); the 80 bytes of the font table, written out from 20_memory.md section 2, glyph by glyph, are
general knowledge of the spec's (D31; log 8). -/
def Obligations.ResetStateValues : Prop :=
  State.reset.pc = 0x0200#16 ∧ State.reset.sp.val = 0 ∧ (∀ k : Fin 16, State.reset.stack[k] = 0x0000#16) ∧
    State.reset.dt = 0x00#8 ∧ State.reset.st = 0x00#8 ∧
    (∀ a, a < 4096 → ¬(0x050 ≤ a ∧ a ≤ 0x09F) → Memory.read State.reset.mem a = 0x00#8) ∧
    ((List.range 80).map fun k => Memory.read State.reset.mem (0x050 + k)) =
      ([0xF0, 0x90, 0x90, 0x90, 0xF0] ++ [0x20, 0x60, 0x20, 0x20, 0x70] ++
        [0xF0, 0x10, 0xF0, 0x80, 0xF0] ++ [0xF0, 0x10, 0xF0, 0x10, 0xF0] ++
        [0x90, 0x90, 0xF0, 0x10, 0x10] ++ [0xF0, 0x80, 0xF0, 0x10, 0xF0] ++
        [0xF0, 0x80, 0xF0, 0x90, 0xF0] ++ [0xF0, 0x10, 0x20, 0x40, 0x40] ++
        [0xF0, 0x90, 0xF0, 0x90, 0xF0] ++ [0xF0, 0x90, 0xF0, 0x10, 0xF0] ++
        [0xF0, 0x90, 0xF0, 0x90, 0x90] ++ [0xE0, 0x90, 0xE0, 0x90, 0xE0] ++
        [0xF0, 0x80, 0x80, 0x80, 0xF0] ++ [0xE0, 0x90, 0x90, 0x90, 0xE0] ++
        [0xF0, 0x80, 0xF0, 0x80, 0xF0] ++ [0xF0, 0x80, 0xF0, 0x80, 0x80] : List Byte) ∧
    (∀ r c, r < 32 → c < 64 → pixel State.reset.fb r c = false) ∧
    State.reset.keyCur = 0x0000#16 ∧ State.reset.keyPrev = 0x0000#16 ∧
    (∀ k : RegIdx, State.reset.getV k = 0x00#8) ∧ State.reset.i = 0x0000#16 ∧
    State.reset.dp = false ∧ State.reset.wk = false ∧ State.reset.unk = false ∧ State.reset.fc = .noFault

/-- 10_state.md section 11: the status word's layout and the cause codes (decision D7). -/
def Obligations.StatusWordLayout : Prop :=
  ∀ s : State,
    s.statusWord.toNat =
      s.dp.toNat + 2 * s.wk.toNat + 4 * s.unk.toNat + 8 * s.fc.code.toNat ∧
    [FaultCause.noFault, .stackOverflow, .stackUnderflow, .fetchOutOfRange, .dataOutOfRange,
      .indexOutOfRange].map FaultCause.code = [0#3, 1#3, 2#3, 3#3, 4#3, 5#3]

/-- 10_state.md R27, 40_operations.md section 5: pixel (`r`, `c`) is the byte 0 or 1 at linear index
`64·r + c`. -/
def Obligations.HostReadsPixelsRowMajor : Prop :=
  ∀ (s : State) (r c : Nat), r < 32 → c < 64 →
    (s.hostPixel (64 * r + c)).toNat = if pixel s.fb r c then 1 else 0

/-- 40_operations.md section 1: the order of coinciding requests (decision D21; log 32). -/
def Obligations.CoincidingRequestsAreOrdered : Prop :=
  ∀ (q : Strobes) (k : Word),
    (q.reset = true → q.operations = [.reset]) ∧
      (q.reset = false → (q.keyUpdate = none ∨ q.keyUpdate = some k) →
        q.operations.Sublist [.drawAck, .keyUpdate k, .tickTimers, .runCycle] ∧
          (HostOp.drawAck ∈ q.operations ↔ q.drawAck = true) ∧
          (HostOp.keyUpdate k ∈ q.operations ↔ q.keyUpdate = some k) ∧
          (HostOp.tickTimers ∈ q.operations ↔ q.tickTimers = true) ∧
          (HostOp.runCycle ∈ q.operations ↔ q.runCycle = true))

/-! ### Control transfer -/

/-- 41_control_flow.md R141. `WK` is the cycle's to write (40_operations.md R121; log 30), here and below. -/
def Obligations.JumpSetsPc : Prop :=
  ∀ (nnn : BitVec 12) (s : State), ∃ t, exec (.op1nnn nnn) s = .next t ∧
    t.pc.toNat = nnn.toNat ∧ ChangesOnly [.pc, .wk] s t

/-- 41_control_flow.md section 4: a call below depth 16 pushes `PC + 2`, the address after the call
(90_conflicts.md C4; the stack's layout is decision D20). -/
def Obligations.CallPushesReturnAddress : Prop :=
  ∀ (nnn : BitVec 12) (s : State) (h : s.sp.val < 16), ∃ t, exec (.op2nnn nnn) s = .next t ∧
    t.stack[s.sp.val] = s.pc + 2#16 ∧ (∀ k : Fin 16, k.val ≠ s.sp.val → t.stack[k] = s.stack[k]) ∧
    t.sp.val = s.sp.val + 1 ∧ t.pc.toNat = nnn.toNat ∧ ChangesOnly [.stack, .sp, .pc, .wk] s t

/-- 41_control_flow.md section 2: a return above depth 0 takes the top slot as it is and leaves the slot's
contents (decision D20). -/
def Obligations.ReturnTakesTopSlot : Prop :=
  ∀ (s : State) (h : 0 < s.sp.val), ∃ t, exec .op00EE s = .next t ∧
    t.pc = s.stack[s.sp.val - 1]'(by omega) ∧ t.sp.val = s.sp.val - 1 ∧ ChangesOnly [.sp, .pc, .wk] s t

/-- 60_exceptions.md section 3: a call at depth 16 and a return at depth 0 are fault entry (decisions D1, D2). -/
def Obligations.StackBoundsFault : Prop :=
  (∀ (nnn : BitVec 12) (s : State), s.sp.val = 16 →
      ∃ t, exec (.op2nnn nnn) s = .next t ∧ EntersFault .stackOverflow s t) ∧
    ∀ s : State, s.sp.val = 0 → ∃ t, exec .op00EE s = .next t ∧ EntersFault .stackUnderflow s t

/-- 41_control_flow.md section 4, 95_test_vectors.md S4: a call and the return after it go to call-site + 2 (C4;
log 31) with the depth and every live slot as before (stack layout: decision D20; log 21). -/
def Obligations.CallThenReturnComesBack : Prop :=
  ∀ (nnn : BitVec 12) (s : State), s.sp.val < 16 →
    ∃ t u, exec (.op2nnn nnn) s = .next t ∧ exec .op00EE t = .next u ∧ u.pc = s.pc + 2#16 ∧
      (∀ k : Fin 16, k.val < s.sp.val → u.stack[k] = s.stack[k]) ∧ ChangesOnly [.pc, .stack, .wk] s u

/-- 41_control_flow.md R143, R144, R145. -/
def Obligations.RegisterSkips : Prop :=
  (∀ (x : RegIdx) (nn : Byte) (s : State), ∃ t, exec (.op3xnn x nn) s = .next t ∧
      t.pc = (if (s.getV x).toNat = nn.toNat then s.pc + 4#16 else s.pc + 2#16) ∧
      ChangesOnly [.pc, .wk] s t) ∧
    (∀ (x : RegIdx) (nn : Byte) (s : State), ∃ t, exec (.op4xnn x nn) s = .next t ∧
      t.pc = (if (s.getV x).toNat = nn.toNat then s.pc + 2#16 else s.pc + 4#16) ∧
      ChangesOnly [.pc, .wk] s t) ∧
    ∀ (x y : RegIdx) (s : State), ∃ t, exec (.op9xy0 x y) s = .next t ∧
      t.pc = (if (s.getV x).toNat = (s.getV y).toNat then s.pc + 2#16 else s.pc + 4#16) ∧
      ChangesOnly [.pc, .wk] s t

/-! ### Register load, arithmetic, logic, shift, random -/

/-- 42_alu.md R160, R162. -/
def Obligations.LoadImmediateAndAssign : Prop :=
  (∀ (x : RegIdx) (nn : Byte) (s : State), ∃ t, exec (.op6xnn x nn) s = .next t ∧ t.getV x = nn ∧
      RegsSameBut [x] s t ∧ t.pc = s.pc + 2#16 ∧ ChangesOnly [.v, .pc, .wk] s t) ∧
    ∀ (x y : RegIdx) (s : State), ∃ t, exec (.op8xy0 x y) s = .next t ∧ t.getV x = s.getV y ∧
      RegsSameBut [x] s t ∧ t.pc = s.pc + 2#16 ∧ ChangesOnly [.v, .pc, .wk] s t

/-- 42_alu.md R161: the sum modulo 256 and no flag, `x = F` included. -/
def Obligations.AddImmediateWrapsWithoutFlag : Prop :=
  ∀ (x : RegIdx) (nn : Byte) (s : State), ∃ t, exec (.op7xnn x nn) s = .next t ∧
    (t.getV x).toNat = ((s.getV x).toNat + nn.toNat) % 256 ∧ RegsSameBut [x] s t ∧ t.pc = s.pc + 2#16 ∧
    ChangesOnly [.v, .pc, .wk] s t

/-- 42_alu.md section 3, bit by bit. That `VF` stays is the spec's decision D13. -/
def Obligations.LogicIsBitwiseWithoutFlag : Prop :=
  ∀ (x y : RegIdx) (s : State),
    (∃ t, exec (.op8xy1 x y) s = .next t ∧
      (∀ k, (t.getV x).getLsbD k = ((s.getV x).getLsbD k || (s.getV y).getLsbD k)) ∧
      RegsSameBut [x] s t ∧ t.pc = s.pc + 2#16 ∧ ChangesOnly [.v, .pc, .wk] s t) ∧
    (∃ t, exec (.op8xy2 x y) s = .next t ∧
      (∀ k, (t.getV x).getLsbD k = ((s.getV x).getLsbD k && (s.getV y).getLsbD k)) ∧
      RegsSameBut [x] s t ∧ t.pc = s.pc + 2#16 ∧ ChangesOnly [.v, .pc, .wk] s t) ∧
    ∃ t, exec (.op8xy3 x y) s = .next t ∧
      (∀ k, (t.getV x).getLsbD k = ((s.getV x).getLsbD k ^^ (s.getV y).getLsbD k)) ∧
      RegsSameBut [x] s t ∧ t.pc = s.pc + 2#16 ∧ ChangesOnly [.v, .pc, .wk] s t

/-- 42_alu.md section 3, `8xy4`: the carry in `VF`, also with `x = F`, where the sum is lost. That the operands
are read before any write is the spec's decision D12. -/
def Obligations.AddPutsCarryInVF : Prop :=
  ∀ (x y : RegIdx) (s : State), ∃ t, exec (.op8xy4 x y) s = .next t ∧
    (t.getV 0xF#4).toNat = (if 255 < (s.getV x).toNat + (s.getV y).toNat then 1 else 0) ∧
    (x ≠ 0xF#4 → (t.getV x).toNat = ((s.getV x).toNat + (s.getV y).toNat) % 256) ∧
    RegsSameBut [x, 0xF#4] s t ∧ t.pc = s.pc + 2#16 ∧ ChangesOnly [.v, .pc, .wk] s t

/-- 42_alu.md section 3, `8xy5` and `8xy7`: not-borrow in `VF`, 1 for equal operands (decisions D12, D30); what
`8xy7` computes is general knowledge of the spec's (D34; log 15). -/
def Obligations.SubtractPutsNotBorrowInVF : Prop :=
  ∀ (x y : RegIdx) (s : State),
    (∃ t, exec (.op8xy5 x y) s = .next t ∧
      (t.getV 0xF#4).toNat = (if (s.getV y).toNat ≤ (s.getV x).toNat then 1 else 0) ∧
      (x ≠ 0xF#4 → (t.getV x).toNat = ((s.getV x).toNat + 256 - (s.getV y).toNat) % 256) ∧
      RegsSameBut [x, 0xF#4] s t ∧ t.pc = s.pc + 2#16 ∧ ChangesOnly [.v, .pc, .wk] s t) ∧
    ∃ t, exec (.op8xy7 x y) s = .next t ∧
      (t.getV 0xF#4).toNat = (if (s.getV x).toNat ≤ (s.getV y).toNat then 1 else 0) ∧
      (x ≠ 0xF#4 → (t.getV x).toNat = ((s.getV y).toNat + 256 - (s.getV x).toNat) % 256) ∧
      RegsSameBut [x, 0xF#4] s t ∧ t.pc = s.pc + 2#16 ∧ ChangesOnly [.v, .pc, .wk] s t

/-- 42_alu.md section 3, `8xy6` and `8xyE`: the dropped bit in `VF`, the operand `V[x]`, `y` ignored (decisions
D11, D12; log 10). -/
def Obligations.ShiftsPutDroppedBitInVF : Prop :=
  ∀ (x y : RegIdx) (s : State),
    (∃ t, exec (.op8xy6 x y) s = .next t ∧ (t.getV 0xF#4).toNat = (s.getV x).toNat % 2 ∧
      (x ≠ 0xF#4 → (t.getV x).toNat = (s.getV x).toNat / 2) ∧
      RegsSameBut [x, 0xF#4] s t ∧ t.pc = s.pc + 2#16 ∧ ChangesOnly [.v, .pc, .wk] s t) ∧
    ∃ t, exec (.op8xyE x y) s = .next t ∧ (t.getV 0xF#4).toNat = (s.getV x).toNat / 128 ∧
      (x ≠ 0xF#4 → (t.getV x).toNat = 2 * (s.getV x).toNat % 256) ∧
      RegsSameBut [x, 0xF#4] s t ∧ t.pc = s.pc + 2#16 ∧ ChangesOnly [.v, .pc, .wk] s t

/-- 42_alu.md section 4: one fresh value of the free input `rnd`, whatever it is, under the mask (decision D10;
log 4). -/
def Obligations.RandomIsFreshByteUnderMask : Prop :=
  ∀ (x : RegIdx) (nn : Byte) (s : State), ∃ t, exec (.opCxnn x nn) s = .next t ∧
    (∀ k, (t.getV x).getLsbD k = ((Config.rnd s.rndCount).getLsbD k && nn.getLsbD k)) ∧
    t.rndCount = s.rndCount + 1 ∧ RegsSameBut [x] s t ∧ t.pc = s.pc + 2#16 ∧
    ChangesOnly [.v, .rndCount, .pc, .wk] s t

/-! ### Display -/

/-- 43_display.md R191. -/
def Obligations.ClearScreenClearsEveryPixel : Prop :=
  ∀ s : State, ∃ t, exec .op00E0 s = .next t ∧ (∀ r c, r < 32 → c < 64 → pixel t.fb r c = false) ∧
    t.dp = true ∧ t.pc = s.pc + 2#16 ∧ ChangesOnly [.fb, .dp, .pc, .wk] s t

/-- 43_display.md section 3: a pixel changes exactly where the sprite covers it; `VF` is 1 exactly when a covered
pixel was lit. The bit order is general knowledge of the spec's (D32; log 11), the row sum and the range check
its decision D18 (log 19), the reading of the coordinates before `VF` its decision D12. -/
def Obligations.DrawXorsSpriteAndReportsCollision : Prop :=
  ∀ (x y : RegIdx) (n : BitVec 4) (s : State), (n.toNat = 0 ∨ s.i.toNat + n.toNat - 1 ≤ 0xFFF) →
    ∃ t, exec (.opDxyn x y n) s = .next t ∧
      (∀ r c, r < 32 → c < 64 →
        (pixel t.fb r c ≠ pixel s.fb r c ↔
          SpriteCovers s (s.getV x).toNat (s.getV y).toNat n.toNat r c)) ∧
      ((t.getV 0xF#4).toNat = 1 ↔
        ∃ r c, r < 32 ∧ c < 64 ∧ SpriteCovers s (s.getV x).toNat (s.getV y).toNat n.toNat r c ∧
          pixel s.fb r c = true) ∧
      (t.getV 0xF#4).toNat ≤ 1 ∧ RegsSameBut [0xF#4] s t ∧ t.dp = true ∧ t.pc = s.pc + 2#16 ∧
      ChangesOnly [.v, .fb, .dp, .pc, .wk] s t

/-- 43_display.md section 3, 95_test_vectors.md S5: the same sprite drawn twice at the same coordinates restores
every pixel, and reports a collision the second time if the first fell on dark pixels and lit one. Which pixels
are covered (`SpriteCovers`) takes bit 7 as leftmost, general knowledge of the spec's (D32; log 11), and the row sum
not reduced, its decision D18 (log 19). A first draw that changes a coordinate, as `VF`, is not the same place. -/
def Obligations.DrawTwiceRestoresTheGrid : Prop :=
  ∀ (x y : RegIdx) (n : BitVec 4) (s t u : State), (n.toNat = 0 ∨ s.i.toNat + n.toNat - 1 ≤ 0xFFF) →
    exec (.opDxyn x y n) s = .next t → t.getV x = s.getV x → t.getV y = s.getV y →
    exec (.opDxyn x y n) t = .next u →
    (∀ r c, r < 32 → c < 64 → pixel u.fb r c = pixel s.fb r c) ∧
      ((∀ r c, r < 32 → c < 64 → SpriteCovers s (s.getV x).toNat (s.getV y).toNat n.toNat r c →
          pixel s.fb r c = false) →
        (∃ r c, r < 32 ∧ c < 64 ∧ SpriteCovers s (s.getV x).toNat (s.getV y).toNat n.toNat r c) →
        (u.getV 0xF#4).toNat = 1)

/-- 10_state.md section 8: once set, the draw-pending flag is cleared only by DrawAck and Reset. -/
def Obligations.DrawPendingClearedOnlyByHost : Prop :=
  ∀ s t : State, step s = .next t → s.dp = true → t.dp = false →
    ∃ rest, s.schedule = .drawAck :: rest ∨ s.schedule = .reset :: rest

/-! ### Keypad -/

/-- 44_keypad.md section 2: the key is `V[x] mod 16` (decision D16; log 13), down in the current snapshot. -/
def Obligations.KeySkips : Prop :=
  ∀ (x : RegIdx) (s : State),
    (∃ t, exec (.opEx9E x) s = .next t ∧
      t.pc = (if s.keyCur.getLsbD ((s.getV x).toNat % 16) then s.pc + 4#16 else s.pc + 2#16) ∧
      ChangesOnly [.pc, .wk] s t) ∧
    ∃ t, exec (.opExA1 x) s = .next t ∧
      t.pc = (if s.keyCur.getLsbD ((s.getV x).toNat % 16) then s.pc + 2#16 else s.pc + 4#16) ∧
      ChangesOnly [.pc, .wk] s t

/-- 44_keypad.md section 3: with no rising key only `WK` changes; else the least rising key (decision D15;
log 12) goes to `V[x]`. -/
def Obligations.KeyWaitStallsOrTakesLeastRisingKey : Prop :=
  ∀ (x : RegIdx) (s : State),
    ((∀ k, k < 16 → ¬risesAt s k) →
      ∃ t, exec (.opFx0A x) s = .next t ∧ t.wk = true ∧ ChangesOnly [.wk] s t) ∧
    ∀ k, k < 16 → risesAt s k → (∀ j, j < k → ¬risesAt s j) →
      ∃ t, exec (.opFx0A x) s = .next t ∧ (t.getV x).toNat = k ∧ RegsSameBut [x] s t ∧ t.wk = false ∧
        t.pc = s.pc + 2#16 ∧ ChangesOnly [.v, .pc, .wk] s t

/-- 44_keypad.md section 1 (derived by the spec): only KeyUpdate and Reset change the latch. -/
def Obligations.LatchChangesOnlyByHost : Prop :=
  ∀ s t : State, step s = .next t → (∀ snapshot rest, s.schedule ≠ .keyUpdate snapshot :: rest) →
    (∀ rest, s.schedule ≠ .reset :: rest) → t.keyCur = s.keyCur ∧ t.keyPrev = s.keyPrev

/-! ### Timers and index -/

/-- 45_timers_index_memory.md section 1: which opcode moves which timer is general knowledge of the spec's (D33;
log 14). -/
def Obligations.TimerTransfers : Prop :=
  ∀ (x : RegIdx) (s : State),
    (∃ t, exec (.opFx07 x) s = .next t ∧ t.getV x = s.dt ∧ RegsSameBut [x] s t ∧ t.pc = s.pc + 2#16 ∧
      ChangesOnly [.v, .pc, .wk] s t) ∧
    (∃ t, exec (.opFx15 x) s = .next t ∧ t.dt = s.getV x ∧ t.pc = s.pc + 2#16 ∧
      ChangesOnly [.dt, .pc, .wk] s t) ∧
    ∃ t, exec (.opFx18 x) s = .next t ∧ t.st = s.getV x ∧ t.pc = s.pc + 2#16 ∧
      ChangesOnly [.st, .pc, .wk] s t

/-- 45_timers_index_memory.md R233. -/
def Obligations.LoadIndex : Prop :=
  ∀ (nnn : BitVec 12) (s : State), ∃ t, exec (.opAnnn nnn) s = .next t ∧ t.i.toNat = nnn.toNat ∧
    t.pc = s.pc + 2#16 ∧ ChangesOnly [.i, .pc, .wk] s t

/-- 45_timers_index_memory.md section 2, `Fx1E`: a sum up to 0xFFF completes, a greater one is fault entry
(decision D4). -/
def Obligations.AddToIndexOrFault : Prop :=
  ∀ (x : RegIdx) (s : State),
    (s.i.toNat + (s.getV x).toNat ≤ 0xFFF →
      ∃ t, exec (.opFx1E x) s = .next t ∧ t.i.toNat = s.i.toNat + (s.getV x).toNat ∧
        t.pc = s.pc + 2#16 ∧ ChangesOnly [.i, .pc, .wk] s t) ∧
    (0xFFF < s.i.toNat + (s.getV x).toNat →
      ∃ t, exec (.opFx1E x) s = .next t ∧ EntersFault .indexOutOfRange s t)

/-- 45_timers_index_memory.md section 2, `Fx29`: base 0x050 and no mask are the spec's decision D19 (conflict C2;
log 9). -/
def Obligations.IndexPointsAtGlyph : Prop :=
  ∀ (x : RegIdx) (s : State), ∃ t, exec (.opFx29 x) s = .next t ∧
    t.i.toNat = 0x050 + 5 * (s.getV x).toNat ∧ t.pc = s.pc + 2#16 ∧ ChangesOnly [.i, .pc, .wk] s t

/-! ### Memory transfers -/

/-- 45_timers_index_memory.md section 3, `Fx33`: three decimal digits, most significant first; `I` unchanged
(decision D14); past 0xFFF nothing is written (decision D3). -/
def Obligations.DecimalDigitsAreStored : Prop :=
  ∀ (x : RegIdx) (s : State),
    (s.i.toNat + 2 ≤ 0xFFF → Memory.wf s.mem = true →
      ∃ t, exec (.opFx33 x) s = .next t ∧
        (s.getV x).toNat = 100 * (Memory.read t.mem s.i.toNat).toNat +
          10 * (Memory.read t.mem (s.i.toNat + 1)).toNat + (Memory.read t.mem (s.i.toNat + 2)).toNat ∧
        (Memory.read t.mem (s.i.toNat + 1)).toNat ≤ 9 ∧ (Memory.read t.mem (s.i.toNat + 2)).toNat ≤ 9 ∧
        MemSameOutside s.i.toNat 3 s t ∧ t.pc = s.pc + 2#16 ∧ ChangesOnly [.mem, .pc, .wk] s t) ∧
    (0xFFF < s.i.toNat + 2 → ∃ t, exec (.opFx33 x) s = .next t ∧ EntersFault .dataOutOfRange s t)

/-- 45_timers_index_memory.md section 3, `Fx55`: `V[0..x]` from `mem[I]` up; `I` unchanged (D14); past 0xFFF
nothing is written (D3). -/
def Obligations.RegistersAreStored : Prop :=
  ∀ (x : RegIdx) (s : State),
    (s.i.toNat + x.toNat ≤ 0xFFF → Memory.wf s.mem = true →
      ∃ t, exec (.opFx55 x) s = .next t ∧
        (∀ k : RegIdx, k.toNat ≤ x.toNat → Memory.read t.mem (s.i.toNat + k.toNat) = s.getV k) ∧
        MemSameOutside s.i.toNat (x.toNat + 1) s t ∧ t.pc = s.pc + 2#16 ∧
        ChangesOnly [.mem, .pc, .wk] s t) ∧
    (0xFFF < s.i.toNat + x.toNat → ∃ t, exec (.opFx55 x) s = .next t ∧ EntersFault .dataOutOfRange s t)

/-- 45_timers_index_memory.md section 3, `Fx65`: `V[0..x]` from `mem[I]` up, the registers above unchanged; `I`
unchanged (D14); past 0xFFF no register changes (D3). -/
def Obligations.RegistersAreLoaded : Prop :=
  ∀ (x : RegIdx) (s : State),
    (s.i.toNat + x.toNat ≤ 0xFFF →
      ∃ t, exec (.opFx65 x) s = .next t ∧
        (∀ k : RegIdx, t.getV k =
          if k.toNat ≤ x.toNat then Memory.read s.mem (s.i.toNat + k.toNat) else s.getV k) ∧
        t.pc = s.pc + 2#16 ∧ ChangesOnly [.v, .pc, .wk] s t) ∧
    (0xFFF < s.i.toNat + x.toNat → ∃ t, exec (.opFx65 x) s = .next t ∧ EntersFault .dataOutOfRange s t)

/-- 20_memory.md section 6: a sprite that passes 0xFFF is fault entry before any pixel changes, clipped rows
counted (decisions D3, D18). -/
def Obligations.DrawPastTheEndFaults : Prop :=
  ∀ (x y : RegIdx) (n : BitVec 4) (s : State), 1 ≤ n.toNat → 0xFFF < s.i.toNat + n.toNat - 1 →
    ∃ t, exec (.opDxyn x y n) s = .next t ∧ EntersFault .dataOutOfRange s t

/-- 20_memory.md section 8 (derived by the spec): bytes that `Fx55` stores where `PC` then points are the opcode
the very next cycle fetches. -/
def Obligations.StoredBytesAreFetchedNext : Prop :=
  ∀ (x : RegIdx) (s t : State) (j : Nat), s.i.toNat + x.toNat ≤ 0xFFF → Memory.wf s.mem = true →
    exec (.opFx55 x) s = .next t → t.pc.toNat = s.i.toNat + j → j + 1 ≤ x.toNat →
    (opcodeAt t).toNat =
      256 * (s.getV (BitVec.ofNat 4 j)).toNat + (s.getV (BitVec.ofNat 4 (j + 1))).toNat

/-! ### The whole machine -/

/-- 10_state.md section 13 (derived by the spec): every operation keeps the invariant. Canonical memory is the
model's representation (log 23). -/
def Obligations.StepKeepsInvariant : Prop :=
  ∀ s t : State, MachineInv s → step s = .next t → MachineInv t

/-- 10_state.md section 13: the invariant holds after reset. Canonical memory is the model's representation
(log 23); that `I` is 0 at reset is the spec's decision D8 (log 6). -/
def Obligations.InvariantHoldsAtReset : Prop := MachineInv State.reset

/-- 60_exceptions.md sections 1 to 3: whatever the state, the machine goes on to a next state; faults are states
of a halted core (decision D5; log 1), unknown opcodes are skipped. -/
def Obligations.EveryStepAnswersNextState : Prop :=
  (∀ (i : Instr) (s : State), ∃ t, exec i s = .next t) ∧ ∀ s : State, ∃ t, step s = .next t

/-- 60_exceptions.md sections 3 and 4: an instruction raises no fault but its own, and a fault changes nothing
else (decision D5). -/
def Obligations.FaultsArePreciseAndOwn : Prop :=
  ∀ (i : Instr) (s t : State), s.fc = .noFault → exec i s = .next t → t.fc ≠ .noFault →
    ∃ c, faultOf i = some c ∧ EntersFault c s t

/-- 60_exceptions.md section 3, 10_state.md section 13: only Reset clears `FC` or `UNK` (decisions D5, D6). -/
def Obligations.FaultAndReportBitsAreSticky : Prop :=
  ∀ s t : State, step s = .next t → (∀ rest, s.schedule ≠ .reset :: rest) →
    (s.fc ≠ .noFault → t.fc = s.fc) ∧ (s.unk = true → t.unk = true)

/-- 10_state.md section 14, the access matrix (derived by the spec): an instruction changes only the pieces it may
write. -/
def Obligations.AccessMatrixHolds : Prop :=
  ∀ (i : Instr) (s t : State), exec i s = .next t → ChangesOnly (mayWrite i) s t

/-- 10_state.md section 2, 42_alu.md section 1: a register changes only as a destination named through `x`, or
as `VF` by an instruction with a flag, and then it holds 0 or 1. That the others leave `VF` is the spec's
decision D13. -/
def Obligations.RegistersChangeOnlyAsDestinationOrFlag : Prop :=
  ∀ (i : Instr) (s t : State), exec i s = .next t →
    (∀ k : RegIdx, t.getV k ≠ s.getV k → destinations i k = true ∨ (k = 0xF#4 ∧ writesFlag i = true)) ∧
      (writesFlag i = true → t.fc = s.fc → s.fc = .noFault → (t.getV 0xF#4).toNat ≤ 1)

/-- 20_memory.md sections 5 and 7: every byte outside those an instruction stores to reads as before, the font
among them. -/
def Obligations.MemoryFrameOfEveryInstruction : Prop :=
  ∀ (i : Instr) (s t : State), exec i s = .next t → MemSameOutside s.i.toNat (storedLength i) s t

/-- 10_state.md sections 10 and 15: `ST`, `DP`, `WK`, `UNK` and what was emitted change nothing a program can
see. -/
def Obligations.StatusIsInvisibleToPrograms : Prop :=
  ∀ (i : Instr) (s s' t t' : State), Memory.wf s.mem = true → Memory.wf s'.mem = true →
    SameToPrograms s s' → exec i s = .next t → exec i s' = .next t' → SameToPrograms t t'

/-- 93_implementation_defined.md U18, 70_reset_and_hazards.md section 4 (derived by the spec): at the end of a run
(the model's predicate Finished, log 28) a cycle changes no state but `WK`. -/
def Obligations.FinishedRunStaysFinished : Prop :=
  ∀ s : State, s.schedule = [] → Finished s →
    ∃ t, step s = .next t ∧ Finished t ∧ ChangesOnly [.wk] s t
end

