-- ==== Sys2Proof/Laws/Decode.lean ====
section
/-! SUPPORT. Fields of the laid-out words: what each field of R92 reads from a word of each format of R93 (spec/30_encoding.md). -/

namespace Sys2Proof

/-- A concatenation as a number. -/
theorem toNat_append_eq {m n : Nat} (a : BitVec m) (b : BitVec n) :
    (a ++ b).toNat = a.toNat * 2 ^ n + b.toNat := by
  rw [BitVec.toNat_append, ← Nat.shiftLeft_add_eq_or_of_lt b.isLt, Nat.shiftLeft_eq]

@[simp] theorem fieldFamily_wordNNN (f : BitVec 4) (nnn : BitVec 12) : fieldFamily (wordNNN f nnn) = f :=
  BitVec.extractLsb'_append_eq_left

@[simp] theorem fieldNNN_wordNNN (f : BitVec 4) (nnn : BitVec 12) : fieldNNN (wordNNN f nnn) = nnn :=
  BitVec.extractLsb'_append_eq_right

@[simp] theorem fieldFamily_wordXNN (f : BitVec 4) (x : RegIdx) (nn : Byte) :
    fieldFamily (wordXNN f x nn) = f := BitVec.extractLsb'_append_eq_left

@[simp] theorem fieldX_wordXNN (f : BitVec 4) (x : RegIdx) (nn : Byte) : fieldX (wordXNN f x nn) = x :=
  (BitVec.extractLsb'_append_eq_of_add_le (start := 8) (len := 4) (by decide)).trans BitVec.extractLsb'_append_eq_left

@[simp] theorem fieldNN_wordXNN (f : BitVec 4) (x : RegIdx) (nn : Byte) : fieldNN (wordXNN f x nn) = nn :=
  (BitVec.extractLsb'_append_eq_of_add_le (start := 0) (len := 8) (by decide)).trans BitVec.extractLsb'_append_eq_right

@[simp] theorem fieldFamily_wordXYN (f : BitVec 4) (x y : RegIdx) (n : BitVec 4) :
    fieldFamily (wordXYN f x y n) = f := BitVec.extractLsb'_append_eq_left

@[simp] theorem fieldX_wordXYN (f : BitVec 4) (x y : RegIdx) (n : BitVec 4) :
    fieldX (wordXYN f x y n) = x :=
  (BitVec.extractLsb'_append_eq_of_add_le (start := 8) (len := 4) (by decide)).trans
    BitVec.extractLsb'_append_eq_left

@[simp] theorem fieldY_wordXYN (f : BitVec 4) (x y : RegIdx) (n : BitVec 4) :
    fieldY (wordXYN f x y n) = y :=
  ((BitVec.extractLsb'_append_eq_of_add_le (start := 4) (len := 4) (by decide)).trans
    (BitVec.extractLsb'_append_eq_of_add_le (start := 4) (len := 4) (by decide))).trans BitVec.extractLsb'_append_eq_left

@[simp] theorem fieldN_wordXYN (f : BitVec 4) (x y : RegIdx) (n : BitVec 4) :
    fieldN (wordXYN f x y n) = n :=
  ((BitVec.extractLsb'_append_eq_of_add_le (start := 0) (len := 4) (by decide)).trans
    (BitVec.extractLsb'_append_eq_of_add_le (start := 0) (len := 4) (by decide))).trans BitVec.extractLsb'_append_eq_right

/-- A word is its family and its low 12 bits. -/
theorem wordNNN_fields (op : Word) : wordNNN (fieldFamily op) (fieldNNN op) = op := by
  have := op.isLt
  apply BitVec.eq_of_toNat_eq
  rw [wordNNN, toNat_append_eq]
  simp only [fieldFamily, fieldNNN, BitVec.extractLsb'_toNat, Nat.shiftRight_eq_div_pow]
  omega

/-- A word is its family, `x` and `nn`. -/
theorem wordXNN_fields (op : Word) : wordXNN (fieldFamily op) (fieldX op) (fieldNN op) = op := by
  have := op.isLt
  apply BitVec.eq_of_toNat_eq
  rw [wordXNN, toNat_append_eq, toNat_append_eq]
  simp only [fieldFamily, fieldX, fieldNN, BitVec.extractLsb'_toNat, Nat.shiftRight_eq_div_pow]
  omega

/-- A word is its family, `x`, `y` and `n`. -/
theorem wordXYN_fields (op : Word) :
    wordXYN (fieldFamily op) (fieldX op) (fieldY op) (fieldN op) = op := by
  have := op.isLt
  apply BitVec.eq_of_toNat_eq
  rw [wordXYN, toNat_append_eq, toNat_append_eq, toNat_append_eq]
  simp only [fieldFamily, fieldX, fieldY, fieldN, BitVec.extractLsb'_toNat, Nat.shiftRight_eq_div_pow]
  omega

/-- An opcode laid out in memory order and assembled again is itself (R64, R91). -/
@[simp] theorem assembleOpcode_bytes (op : Word) : assembleOpcode (opcodeHigh op) (opcodeLow op) = op := by
  have := op.isLt
  apply BitVec.eq_of_toNat_eq
  rw [assembleOpcode, toNat_append_eq]
  simp only [opcodeHigh, opcodeLow, BitVec.extractLsb'_toNat, Nat.shiftRight_eq_div_pow]
  omega

/-- The assembled opcode as a number: `256·first + second` (R64). -/
theorem assembleOpcode_toNat (first second : Byte) :
    (assembleOpcode first second).toNat = 256 * first.toNat + second.toNat := by
  rw [assembleOpcode, toNat_append_eq]
  omega

/-! ### Well-formedness -/

@[simp] theorem Field.fits_x (x : RegIdx) : Field.fits .x x.toNat = true := decide_eq_true x.isLt

@[simp] theorem Field.fits_y (y : RegIdx) : Field.fits .y y.toNat = true := decide_eq_true y.isLt

@[simp] theorem Field.fits_n (n : BitVec 4) : Field.fits .n n.toNat = true := decide_eq_true n.isLt

@[simp] theorem Field.fits_nn (nn : Byte) : Field.fits .nn nn.toNat = true := decide_eq_true nn.isLt

@[simp] theorem Field.fits_nnn (nnn : BitVec 12) : Field.fits .nnn nnn.toNat = true := decide_eq_true nnn.isLt

/-- Every instruction is well-formed: its fields have their widths as types (R92). -/
theorem Instr.wf_all (i : Instr) : i.wf = true := by
  cases i <;> simp [Instr.wf, operandsFit, Instr.operands]

end Sys2Proof
end

