-- ==== Sys2Proof/Laws/State.lean ====
section
/-! SUPPORT. What each update of State does to each field: one lemma per field per update, true by unfolding the update once, so that no later proof unfolds a record update. The registers are read through State.getV. -/

namespace Sys2Proof.Machine

/-! ### State.setV -/

@[simp] theorem State.setV_i (s : State) (k : RegIdx) (b : Byte) : (s.setV k b).i = s.i := rfl
@[simp] theorem State.setV_pc (s : State) (k : RegIdx) (b : Byte) : (s.setV k b).pc = s.pc := rfl
@[simp] theorem State.setV_stack (s : State) (k : RegIdx) (b : Byte) : (s.setV k b).stack = s.stack := rfl
@[simp] theorem State.setV_sp (s : State) (k : RegIdx) (b : Byte) : (s.setV k b).sp = s.sp := rfl
@[simp] theorem State.setV_dt (s : State) (k : RegIdx) (b : Byte) : (s.setV k b).dt = s.dt := rfl
@[simp] theorem State.setV_st (s : State) (k : RegIdx) (b : Byte) : (s.setV k b).st = s.st := rfl
@[simp] theorem State.setV_mem (s : State) (k : RegIdx) (b : Byte) : (s.setV k b).mem = s.mem := rfl
@[simp] theorem State.setV_fb (s : State) (k : RegIdx) (b : Byte) : (s.setV k b).fb = s.fb := rfl
@[simp] theorem State.setV_dp (s : State) (k : RegIdx) (b : Byte) : (s.setV k b).dp = s.dp := rfl
@[simp] theorem State.setV_keyCur (s : State) (k : RegIdx) (b : Byte) : (s.setV k b).keyCur = s.keyCur := rfl
@[simp] theorem State.setV_keyPrev (s : State) (k : RegIdx) (b : Byte) : (s.setV k b).keyPrev = s.keyPrev := rfl
@[simp] theorem State.setV_wk (s : State) (k : RegIdx) (b : Byte) : (s.setV k b).wk = s.wk := rfl
@[simp] theorem State.setV_unk (s : State) (k : RegIdx) (b : Byte) : (s.setV k b).unk = s.unk := rfl
@[simp] theorem State.setV_fc (s : State) (k : RegIdx) (b : Byte) : (s.setV k b).fc = s.fc := rfl
@[simp] theorem State.setV_rndCount (s : State) (k : RegIdx) (b : Byte) : (s.setV k b).rndCount = s.rndCount := rfl
@[simp] theorem State.setV_schedule (s : State) (k : RegIdx) (b : Byte) : (s.setV k b).schedule = s.schedule := rfl
@[simp] theorem State.setV_events (s : State) (k : RegIdx) (b : Byte) : (s.setV k b).events = s.events := rfl

/-! ### State.setResultFlag -/

@[simp] theorem State.setResultFlag_i (s : State) (x : RegIdx) (r f : Byte) : (s.setResultFlag x r f).i = s.i := rfl
@[simp] theorem State.setResultFlag_pc (s : State) (x : RegIdx) (r f : Byte) : (s.setResultFlag x r f).pc = s.pc := rfl
@[simp] theorem State.setResultFlag_stack (s : State) (x : RegIdx) (r f : Byte) : (s.setResultFlag x r f).stack = s.stack := rfl
@[simp] theorem State.setResultFlag_sp (s : State) (x : RegIdx) (r f : Byte) : (s.setResultFlag x r f).sp = s.sp := rfl
@[simp] theorem State.setResultFlag_dt (s : State) (x : RegIdx) (r f : Byte) : (s.setResultFlag x r f).dt = s.dt := rfl
@[simp] theorem State.setResultFlag_st (s : State) (x : RegIdx) (r f : Byte) : (s.setResultFlag x r f).st = s.st := rfl
@[simp] theorem State.setResultFlag_mem (s : State) (x : RegIdx) (r f : Byte) : (s.setResultFlag x r f).mem = s.mem := rfl
@[simp] theorem State.setResultFlag_fb (s : State) (x : RegIdx) (r f : Byte) : (s.setResultFlag x r f).fb = s.fb := rfl
@[simp] theorem State.setResultFlag_dp (s : State) (x : RegIdx) (r f : Byte) : (s.setResultFlag x r f).dp = s.dp := rfl
@[simp] theorem State.setResultFlag_keyCur (s : State) (x : RegIdx) (r f : Byte) : (s.setResultFlag x r f).keyCur = s.keyCur := rfl
@[simp] theorem State.setResultFlag_keyPrev (s : State) (x : RegIdx) (r f : Byte) : (s.setResultFlag x r f).keyPrev = s.keyPrev := rfl
@[simp] theorem State.setResultFlag_wk (s : State) (x : RegIdx) (r f : Byte) : (s.setResultFlag x r f).wk = s.wk := rfl
@[simp] theorem State.setResultFlag_unk (s : State) (x : RegIdx) (r f : Byte) : (s.setResultFlag x r f).unk = s.unk := rfl
@[simp] theorem State.setResultFlag_fc (s : State) (x : RegIdx) (r f : Byte) : (s.setResultFlag x r f).fc = s.fc := rfl
@[simp] theorem State.setResultFlag_rndCount (s : State) (x : RegIdx) (r f : Byte) : (s.setResultFlag x r f).rndCount = s.rndCount := rfl
@[simp] theorem State.setResultFlag_schedule (s : State) (x : RegIdx) (r f : Byte) : (s.setResultFlag x r f).schedule = s.schedule := rfl
@[simp] theorem State.setResultFlag_events (s : State) (x : RegIdx) (r f : Byte) : (s.setResultFlag x r f).events = s.events := rfl

/-! ### State.loadV -/

@[simp] theorem State.loadV_i (s : State) (x : RegIdx) (a : Nat) : (s.loadV x a).i = s.i := rfl
@[simp] theorem State.loadV_pc (s : State) (x : RegIdx) (a : Nat) : (s.loadV x a).pc = s.pc := rfl
@[simp] theorem State.loadV_stack (s : State) (x : RegIdx) (a : Nat) : (s.loadV x a).stack = s.stack := rfl
@[simp] theorem State.loadV_sp (s : State) (x : RegIdx) (a : Nat) : (s.loadV x a).sp = s.sp := rfl
@[simp] theorem State.loadV_dt (s : State) (x : RegIdx) (a : Nat) : (s.loadV x a).dt = s.dt := rfl
@[simp] theorem State.loadV_st (s : State) (x : RegIdx) (a : Nat) : (s.loadV x a).st = s.st := rfl
@[simp] theorem State.loadV_mem (s : State) (x : RegIdx) (a : Nat) : (s.loadV x a).mem = s.mem := rfl
@[simp] theorem State.loadV_fb (s : State) (x : RegIdx) (a : Nat) : (s.loadV x a).fb = s.fb := rfl
@[simp] theorem State.loadV_dp (s : State) (x : RegIdx) (a : Nat) : (s.loadV x a).dp = s.dp := rfl
@[simp] theorem State.loadV_keyCur (s : State) (x : RegIdx) (a : Nat) : (s.loadV x a).keyCur = s.keyCur := rfl
@[simp] theorem State.loadV_keyPrev (s : State) (x : RegIdx) (a : Nat) : (s.loadV x a).keyPrev = s.keyPrev := rfl
@[simp] theorem State.loadV_wk (s : State) (x : RegIdx) (a : Nat) : (s.loadV x a).wk = s.wk := rfl
@[simp] theorem State.loadV_unk (s : State) (x : RegIdx) (a : Nat) : (s.loadV x a).unk = s.unk := rfl
@[simp] theorem State.loadV_fc (s : State) (x : RegIdx) (a : Nat) : (s.loadV x a).fc = s.fc := rfl
@[simp] theorem State.loadV_rndCount (s : State) (x : RegIdx) (a : Nat) : (s.loadV x a).rndCount = s.rndCount := rfl
@[simp] theorem State.loadV_schedule (s : State) (x : RegIdx) (a : Nat) : (s.loadV x a).schedule = s.schedule := rfl
@[simp] theorem State.loadV_events (s : State) (x : RegIdx) (a : Nat) : (s.loadV x a).events = s.events := rfl

/-! ### State.setI -/

@[simp] theorem State.setI_v (s : State) (w : Word) : (s.setI w).v = s.v := rfl
@[simp] theorem State.setI_i (s : State) (w : Word) : (s.setI w).i = w := rfl
@[simp] theorem State.setI_pc (s : State) (w : Word) : (s.setI w).pc = s.pc := rfl
@[simp] theorem State.setI_stack (s : State) (w : Word) : (s.setI w).stack = s.stack := rfl
@[simp] theorem State.setI_sp (s : State) (w : Word) : (s.setI w).sp = s.sp := rfl
@[simp] theorem State.setI_dt (s : State) (w : Word) : (s.setI w).dt = s.dt := rfl
@[simp] theorem State.setI_st (s : State) (w : Word) : (s.setI w).st = s.st := rfl
@[simp] theorem State.setI_mem (s : State) (w : Word) : (s.setI w).mem = s.mem := rfl
@[simp] theorem State.setI_fb (s : State) (w : Word) : (s.setI w).fb = s.fb := rfl
@[simp] theorem State.setI_dp (s : State) (w : Word) : (s.setI w).dp = s.dp := rfl
@[simp] theorem State.setI_keyCur (s : State) (w : Word) : (s.setI w).keyCur = s.keyCur := rfl
@[simp] theorem State.setI_keyPrev (s : State) (w : Word) : (s.setI w).keyPrev = s.keyPrev := rfl
@[simp] theorem State.setI_wk (s : State) (w : Word) : (s.setI w).wk = s.wk := rfl
@[simp] theorem State.setI_unk (s : State) (w : Word) : (s.setI w).unk = s.unk := rfl
@[simp] theorem State.setI_fc (s : State) (w : Word) : (s.setI w).fc = s.fc := rfl
@[simp] theorem State.setI_rndCount (s : State) (w : Word) : (s.setI w).rndCount = s.rndCount := rfl
@[simp] theorem State.setI_schedule (s : State) (w : Word) : (s.setI w).schedule = s.schedule := rfl
@[simp] theorem State.setI_events (s : State) (w : Word) : (s.setI w).events = s.events := rfl
@[simp] theorem State.setI_getV (s : State) (w : Word) (k : RegIdx) : (s.setI w).getV k = s.getV k := rfl

/-! ### State.setDt -/

@[simp] theorem State.setDt_v (s : State) (b : Byte) : (s.setDt b).v = s.v := rfl
@[simp] theorem State.setDt_i (s : State) (b : Byte) : (s.setDt b).i = s.i := rfl
@[simp] theorem State.setDt_pc (s : State) (b : Byte) : (s.setDt b).pc = s.pc := rfl
@[simp] theorem State.setDt_stack (s : State) (b : Byte) : (s.setDt b).stack = s.stack := rfl
@[simp] theorem State.setDt_sp (s : State) (b : Byte) : (s.setDt b).sp = s.sp := rfl
@[simp] theorem State.setDt_dt (s : State) (b : Byte) : (s.setDt b).dt = b := rfl
@[simp] theorem State.setDt_st (s : State) (b : Byte) : (s.setDt b).st = s.st := rfl
@[simp] theorem State.setDt_mem (s : State) (b : Byte) : (s.setDt b).mem = s.mem := rfl
@[simp] theorem State.setDt_fb (s : State) (b : Byte) : (s.setDt b).fb = s.fb := rfl
@[simp] theorem State.setDt_dp (s : State) (b : Byte) : (s.setDt b).dp = s.dp := rfl
@[simp] theorem State.setDt_keyCur (s : State) (b : Byte) : (s.setDt b).keyCur = s.keyCur := rfl
@[simp] theorem State.setDt_keyPrev (s : State) (b : Byte) : (s.setDt b).keyPrev = s.keyPrev := rfl
@[simp] theorem State.setDt_wk (s : State) (b : Byte) : (s.setDt b).wk = s.wk := rfl
@[simp] theorem State.setDt_unk (s : State) (b : Byte) : (s.setDt b).unk = s.unk := rfl
@[simp] theorem State.setDt_fc (s : State) (b : Byte) : (s.setDt b).fc = s.fc := rfl
@[simp] theorem State.setDt_rndCount (s : State) (b : Byte) : (s.setDt b).rndCount = s.rndCount := rfl
@[simp] theorem State.setDt_schedule (s : State) (b : Byte) : (s.setDt b).schedule = s.schedule := rfl
@[simp] theorem State.setDt_events (s : State) (b : Byte) : (s.setDt b).events = s.events := rfl
@[simp] theorem State.setDt_getV (s : State) (b : Byte) (k : RegIdx) : (s.setDt b).getV k = s.getV k := rfl

/-! ### State.setSt -/

@[simp] theorem State.setSt_v (s : State) (b : Byte) : (s.setSt b).v = s.v := rfl
@[simp] theorem State.setSt_i (s : State) (b : Byte) : (s.setSt b).i = s.i := rfl
@[simp] theorem State.setSt_pc (s : State) (b : Byte) : (s.setSt b).pc = s.pc := rfl
@[simp] theorem State.setSt_stack (s : State) (b : Byte) : (s.setSt b).stack = s.stack := rfl
@[simp] theorem State.setSt_sp (s : State) (b : Byte) : (s.setSt b).sp = s.sp := rfl
@[simp] theorem State.setSt_dt (s : State) (b : Byte) : (s.setSt b).dt = s.dt := rfl
@[simp] theorem State.setSt_st (s : State) (b : Byte) : (s.setSt b).st = b := rfl
@[simp] theorem State.setSt_mem (s : State) (b : Byte) : (s.setSt b).mem = s.mem := rfl
@[simp] theorem State.setSt_fb (s : State) (b : Byte) : (s.setSt b).fb = s.fb := rfl
@[simp] theorem State.setSt_dp (s : State) (b : Byte) : (s.setSt b).dp = s.dp := rfl
@[simp] theorem State.setSt_keyCur (s : State) (b : Byte) : (s.setSt b).keyCur = s.keyCur := rfl
@[simp] theorem State.setSt_keyPrev (s : State) (b : Byte) : (s.setSt b).keyPrev = s.keyPrev := rfl
@[simp] theorem State.setSt_wk (s : State) (b : Byte) : (s.setSt b).wk = s.wk := rfl
@[simp] theorem State.setSt_unk (s : State) (b : Byte) : (s.setSt b).unk = s.unk := rfl
@[simp] theorem State.setSt_fc (s : State) (b : Byte) : (s.setSt b).fc = s.fc := rfl
@[simp] theorem State.setSt_rndCount (s : State) (b : Byte) : (s.setSt b).rndCount = s.rndCount := rfl
@[simp] theorem State.setSt_schedule (s : State) (b : Byte) : (s.setSt b).schedule = s.schedule := rfl
@[simp] theorem State.setSt_events (s : State) (b : Byte) : (s.setSt b).events = s.events := rfl
@[simp] theorem State.setSt_getV (s : State) (b : Byte) (k : RegIdx) : (s.setSt b).getV k = s.getV k := rfl

/-! ### State.setMem -/

@[simp] theorem State.setMem_v (s : State) (m : List Host.Cell) : (s.setMem m).v = s.v := rfl
@[simp] theorem State.setMem_i (s : State) (m : List Host.Cell) : (s.setMem m).i = s.i := rfl
@[simp] theorem State.setMem_pc (s : State) (m : List Host.Cell) : (s.setMem m).pc = s.pc := rfl
@[simp] theorem State.setMem_stack (s : State) (m : List Host.Cell) : (s.setMem m).stack = s.stack := rfl
@[simp] theorem State.setMem_sp (s : State) (m : List Host.Cell) : (s.setMem m).sp = s.sp := rfl
@[simp] theorem State.setMem_dt (s : State) (m : List Host.Cell) : (s.setMem m).dt = s.dt := rfl
@[simp] theorem State.setMem_st (s : State) (m : List Host.Cell) : (s.setMem m).st = s.st := rfl
@[simp] theorem State.setMem_mem (s : State) (m : List Host.Cell) : (s.setMem m).mem = m := rfl
@[simp] theorem State.setMem_fb (s : State) (m : List Host.Cell) : (s.setMem m).fb = s.fb := rfl
@[simp] theorem State.setMem_dp (s : State) (m : List Host.Cell) : (s.setMem m).dp = s.dp := rfl
@[simp] theorem State.setMem_keyCur (s : State) (m : List Host.Cell) : (s.setMem m).keyCur = s.keyCur := rfl
@[simp] theorem State.setMem_keyPrev (s : State) (m : List Host.Cell) : (s.setMem m).keyPrev = s.keyPrev := rfl
@[simp] theorem State.setMem_wk (s : State) (m : List Host.Cell) : (s.setMem m).wk = s.wk := rfl
@[simp] theorem State.setMem_unk (s : State) (m : List Host.Cell) : (s.setMem m).unk = s.unk := rfl
@[simp] theorem State.setMem_fc (s : State) (m : List Host.Cell) : (s.setMem m).fc = s.fc := rfl
@[simp] theorem State.setMem_rndCount (s : State) (m : List Host.Cell) : (s.setMem m).rndCount = s.rndCount := rfl
@[simp] theorem State.setMem_schedule (s : State) (m : List Host.Cell) : (s.setMem m).schedule = s.schedule := rfl
@[simp] theorem State.setMem_events (s : State) (m : List Host.Cell) : (s.setMem m).events = s.events := rfl
@[simp] theorem State.setMem_getV (s : State) (m : List Host.Cell) (k : RegIdx) : (s.setMem m).getV k = s.getV k := rfl

/-! ### State.setSchedule -/

@[simp] theorem State.setSchedule_v (s : State) (ops : List HostOp) : (s.setSchedule ops).v = s.v := rfl
@[simp] theorem State.setSchedule_i (s : State) (ops : List HostOp) : (s.setSchedule ops).i = s.i := rfl
@[simp] theorem State.setSchedule_pc (s : State) (ops : List HostOp) : (s.setSchedule ops).pc = s.pc := rfl
@[simp] theorem State.setSchedule_stack (s : State) (ops : List HostOp) : (s.setSchedule ops).stack = s.stack := rfl
@[simp] theorem State.setSchedule_sp (s : State) (ops : List HostOp) : (s.setSchedule ops).sp = s.sp := rfl
@[simp] theorem State.setSchedule_dt (s : State) (ops : List HostOp) : (s.setSchedule ops).dt = s.dt := rfl
@[simp] theorem State.setSchedule_st (s : State) (ops : List HostOp) : (s.setSchedule ops).st = s.st := rfl
@[simp] theorem State.setSchedule_mem (s : State) (ops : List HostOp) : (s.setSchedule ops).mem = s.mem := rfl
@[simp] theorem State.setSchedule_fb (s : State) (ops : List HostOp) : (s.setSchedule ops).fb = s.fb := rfl
@[simp] theorem State.setSchedule_dp (s : State) (ops : List HostOp) : (s.setSchedule ops).dp = s.dp := rfl
@[simp] theorem State.setSchedule_keyCur (s : State) (ops : List HostOp) : (s.setSchedule ops).keyCur = s.keyCur := rfl
@[simp] theorem State.setSchedule_keyPrev (s : State) (ops : List HostOp) : (s.setSchedule ops).keyPrev = s.keyPrev := rfl
@[simp] theorem State.setSchedule_wk (s : State) (ops : List HostOp) : (s.setSchedule ops).wk = s.wk := rfl
@[simp] theorem State.setSchedule_unk (s : State) (ops : List HostOp) : (s.setSchedule ops).unk = s.unk := rfl
@[simp] theorem State.setSchedule_fc (s : State) (ops : List HostOp) : (s.setSchedule ops).fc = s.fc := rfl
@[simp] theorem State.setSchedule_rndCount (s : State) (ops : List HostOp) : (s.setSchedule ops).rndCount = s.rndCount := rfl
@[simp] theorem State.setSchedule_schedule (s : State) (ops : List HostOp) : (s.setSchedule ops).schedule = ops := rfl
@[simp] theorem State.setSchedule_events (s : State) (ops : List HostOp) : (s.setSchedule ops).events = s.events := rfl
@[simp] theorem State.setSchedule_getV (s : State) (ops : List HostOp) (k : RegIdx) : (s.setSchedule ops).getV k = s.getV k := rfl

/-! ### State.drawRnd -/

@[simp] theorem State.drawRnd_v (s : State) : (s.drawRnd.2).v = s.v := rfl
@[simp] theorem State.drawRnd_i (s : State) : (s.drawRnd.2).i = s.i := rfl
@[simp] theorem State.drawRnd_pc (s : State) : (s.drawRnd.2).pc = s.pc := rfl
@[simp] theorem State.drawRnd_stack (s : State) : (s.drawRnd.2).stack = s.stack := rfl
@[simp] theorem State.drawRnd_sp (s : State) : (s.drawRnd.2).sp = s.sp := rfl
@[simp] theorem State.drawRnd_dt (s : State) : (s.drawRnd.2).dt = s.dt := rfl
@[simp] theorem State.drawRnd_st (s : State) : (s.drawRnd.2).st = s.st := rfl
@[simp] theorem State.drawRnd_mem (s : State) : (s.drawRnd.2).mem = s.mem := rfl
@[simp] theorem State.drawRnd_fb (s : State) : (s.drawRnd.2).fb = s.fb := rfl
@[simp] theorem State.drawRnd_dp (s : State) : (s.drawRnd.2).dp = s.dp := rfl
@[simp] theorem State.drawRnd_keyCur (s : State) : (s.drawRnd.2).keyCur = s.keyCur := rfl
@[simp] theorem State.drawRnd_keyPrev (s : State) : (s.drawRnd.2).keyPrev = s.keyPrev := rfl
@[simp] theorem State.drawRnd_wk (s : State) : (s.drawRnd.2).wk = s.wk := rfl
@[simp] theorem State.drawRnd_unk (s : State) : (s.drawRnd.2).unk = s.unk := rfl
@[simp] theorem State.drawRnd_fc (s : State) : (s.drawRnd.2).fc = s.fc := rfl
@[simp] theorem State.drawRnd_rndCount (s : State) : (s.drawRnd.2).rndCount = s.rndCount + 1 := rfl
@[simp] theorem State.drawRnd_schedule (s : State) : (s.drawRnd.2).schedule = s.schedule := rfl
@[simp] theorem State.drawRnd_events (s : State) : (s.drawRnd.2).events = s.events := rfl
@[simp] theorem State.drawRnd_getV (s : State) (k : RegIdx) : (s.drawRnd.2).getV k = s.getV k := rfl

/-! ### State.push -/

@[simp] theorem State.push_v (s : State) (w : Word) (h : s.sp.val < 16) : (s.push w h).v = s.v := rfl
@[simp] theorem State.push_i (s : State) (w : Word) (h : s.sp.val < 16) : (s.push w h).i = s.i := rfl
@[simp] theorem State.push_pc (s : State) (w : Word) (h : s.sp.val < 16) : (s.push w h).pc = s.pc := rfl
@[simp] theorem State.push_stack (s : State) (w : Word) (h : s.sp.val < 16) : (s.push w h).stack = s.stack.set s.sp.val w h := rfl
@[simp] theorem State.push_sp (s : State) (w : Word) (h : s.sp.val < 16) : (s.push w h).sp = ⟨s.sp.val + 1, by omega⟩ := rfl
@[simp] theorem State.push_dt (s : State) (w : Word) (h : s.sp.val < 16) : (s.push w h).dt = s.dt := rfl
@[simp] theorem State.push_st (s : State) (w : Word) (h : s.sp.val < 16) : (s.push w h).st = s.st := rfl
@[simp] theorem State.push_mem (s : State) (w : Word) (h : s.sp.val < 16) : (s.push w h).mem = s.mem := rfl
@[simp] theorem State.push_fb (s : State) (w : Word) (h : s.sp.val < 16) : (s.push w h).fb = s.fb := rfl
@[simp] theorem State.push_dp (s : State) (w : Word) (h : s.sp.val < 16) : (s.push w h).dp = s.dp := rfl
@[simp] theorem State.push_keyCur (s : State) (w : Word) (h : s.sp.val < 16) : (s.push w h).keyCur = s.keyCur := rfl
@[simp] theorem State.push_keyPrev (s : State) (w : Word) (h : s.sp.val < 16) : (s.push w h).keyPrev = s.keyPrev := rfl
@[simp] theorem State.push_wk (s : State) (w : Word) (h : s.sp.val < 16) : (s.push w h).wk = s.wk := rfl
@[simp] theorem State.push_unk (s : State) (w : Word) (h : s.sp.val < 16) : (s.push w h).unk = s.unk := rfl
@[simp] theorem State.push_fc (s : State) (w : Word) (h : s.sp.val < 16) : (s.push w h).fc = s.fc := rfl
@[simp] theorem State.push_rndCount (s : State) (w : Word) (h : s.sp.val < 16) : (s.push w h).rndCount = s.rndCount := rfl
@[simp] theorem State.push_schedule (s : State) (w : Word) (h : s.sp.val < 16) : (s.push w h).schedule = s.schedule := rfl
@[simp] theorem State.push_events (s : State) (w : Word) (h : s.sp.val < 16) : (s.push w h).events = s.events := rfl
@[simp] theorem State.push_getV (s : State) (w : Word) (h : s.sp.val < 16) (k : RegIdx) : (s.push w h).getV k = s.getV k := rfl

/-! ### State.pop -/

@[simp] theorem State.pop_v (s : State) (h : 0 < s.sp.val) : (s.pop h).v = s.v := rfl
@[simp] theorem State.pop_i (s : State) (h : 0 < s.sp.val) : (s.pop h).i = s.i := rfl
@[simp] theorem State.pop_pc (s : State) (h : 0 < s.sp.val) : (s.pop h).pc = s.pc := rfl
@[simp] theorem State.pop_stack (s : State) (h : 0 < s.sp.val) : (s.pop h).stack = s.stack := rfl
@[simp] theorem State.pop_sp (s : State) (h : 0 < s.sp.val) : (s.pop h).sp = ⟨s.sp.val - 1, by omega⟩ := rfl
@[simp] theorem State.pop_dt (s : State) (h : 0 < s.sp.val) : (s.pop h).dt = s.dt := rfl
@[simp] theorem State.pop_st (s : State) (h : 0 < s.sp.val) : (s.pop h).st = s.st := rfl
@[simp] theorem State.pop_mem (s : State) (h : 0 < s.sp.val) : (s.pop h).mem = s.mem := rfl
@[simp] theorem State.pop_fb (s : State) (h : 0 < s.sp.val) : (s.pop h).fb = s.fb := rfl
@[simp] theorem State.pop_dp (s : State) (h : 0 < s.sp.val) : (s.pop h).dp = s.dp := rfl
@[simp] theorem State.pop_keyCur (s : State) (h : 0 < s.sp.val) : (s.pop h).keyCur = s.keyCur := rfl
@[simp] theorem State.pop_keyPrev (s : State) (h : 0 < s.sp.val) : (s.pop h).keyPrev = s.keyPrev := rfl
@[simp] theorem State.pop_wk (s : State) (h : 0 < s.sp.val) : (s.pop h).wk = s.wk := rfl
@[simp] theorem State.pop_unk (s : State) (h : 0 < s.sp.val) : (s.pop h).unk = s.unk := rfl
@[simp] theorem State.pop_fc (s : State) (h : 0 < s.sp.val) : (s.pop h).fc = s.fc := rfl
@[simp] theorem State.pop_rndCount (s : State) (h : 0 < s.sp.val) : (s.pop h).rndCount = s.rndCount := rfl
@[simp] theorem State.pop_schedule (s : State) (h : 0 < s.sp.val) : (s.pop h).schedule = s.schedule := rfl
@[simp] theorem State.pop_events (s : State) (h : 0 < s.sp.val) : (s.pop h).events = s.events := rfl
@[simp] theorem State.pop_getV (s : State) (h : 0 < s.sp.val) (k : RegIdx) : (s.pop h).getV k = s.getV k := rfl

/-! ### State.drawn -/

@[simp] theorem State.drawn_v (s : State) (fb : Vector (BitVec 64) 32) : (s.drawn fb).v = s.v := rfl
@[simp] theorem State.drawn_i (s : State) (fb : Vector (BitVec 64) 32) : (s.drawn fb).i = s.i := rfl
@[simp] theorem State.drawn_pc (s : State) (fb : Vector (BitVec 64) 32) : (s.drawn fb).pc = s.pc := rfl
@[simp] theorem State.drawn_stack (s : State) (fb : Vector (BitVec 64) 32) : (s.drawn fb).stack = s.stack := rfl
@[simp] theorem State.drawn_sp (s : State) (fb : Vector (BitVec 64) 32) : (s.drawn fb).sp = s.sp := rfl
@[simp] theorem State.drawn_dt (s : State) (fb : Vector (BitVec 64) 32) : (s.drawn fb).dt = s.dt := rfl
@[simp] theorem State.drawn_st (s : State) (fb : Vector (BitVec 64) 32) : (s.drawn fb).st = s.st := rfl
@[simp] theorem State.drawn_mem (s : State) (fb : Vector (BitVec 64) 32) : (s.drawn fb).mem = s.mem := rfl
@[simp] theorem State.drawn_fb (s : State) (fb : Vector (BitVec 64) 32) : (s.drawn fb).fb = fb := rfl
@[simp] theorem State.drawn_dp (s : State) (fb : Vector (BitVec 64) 32) : (s.drawn fb).dp = true := rfl
@[simp] theorem State.drawn_keyCur (s : State) (fb : Vector (BitVec 64) 32) : (s.drawn fb).keyCur = s.keyCur := rfl
@[simp] theorem State.drawn_keyPrev (s : State) (fb : Vector (BitVec 64) 32) : (s.drawn fb).keyPrev = s.keyPrev := rfl
@[simp] theorem State.drawn_wk (s : State) (fb : Vector (BitVec 64) 32) : (s.drawn fb).wk = s.wk := rfl
@[simp] theorem State.drawn_unk (s : State) (fb : Vector (BitVec 64) 32) : (s.drawn fb).unk = s.unk := rfl
@[simp] theorem State.drawn_fc (s : State) (fb : Vector (BitVec 64) 32) : (s.drawn fb).fc = s.fc := rfl
@[simp] theorem State.drawn_rndCount (s : State) (fb : Vector (BitVec 64) 32) : (s.drawn fb).rndCount = s.rndCount := rfl
@[simp] theorem State.drawn_schedule (s : State) (fb : Vector (BitVec 64) 32) : (s.drawn fb).schedule = s.schedule := rfl
@[simp] theorem State.drawn_events (s : State) (fb : Vector (BitVec 64) 32) : (s.drawn fb).events = s.events := rfl
@[simp] theorem State.drawn_getV (s : State) (fb : Vector (BitVec 64) 32) (k : RegIdx) : (s.drawn fb).getV k = s.getV k := rfl

/-! ### State.advance -/

@[simp] theorem State.advance_v (s : State) : (s.advance).v = s.v := rfl
@[simp] theorem State.advance_i (s : State) : (s.advance).i = s.i := rfl
@[simp] theorem State.advance_pc (s : State) : (s.advance).pc = s.pc + 2#16 := rfl
@[simp] theorem State.advance_stack (s : State) : (s.advance).stack = s.stack := rfl
@[simp] theorem State.advance_sp (s : State) : (s.advance).sp = s.sp := rfl
@[simp] theorem State.advance_dt (s : State) : (s.advance).dt = s.dt := rfl
@[simp] theorem State.advance_st (s : State) : (s.advance).st = s.st := rfl
@[simp] theorem State.advance_mem (s : State) : (s.advance).mem = s.mem := rfl
@[simp] theorem State.advance_fb (s : State) : (s.advance).fb = s.fb := rfl
@[simp] theorem State.advance_dp (s : State) : (s.advance).dp = s.dp := rfl
@[simp] theorem State.advance_keyCur (s : State) : (s.advance).keyCur = s.keyCur := rfl
@[simp] theorem State.advance_keyPrev (s : State) : (s.advance).keyPrev = s.keyPrev := rfl
@[simp] theorem State.advance_wk (s : State) : (s.advance).wk = false := rfl
@[simp] theorem State.advance_unk (s : State) : (s.advance).unk = s.unk := rfl
@[simp] theorem State.advance_fc (s : State) : (s.advance).fc = s.fc := rfl
@[simp] theorem State.advance_rndCount (s : State) : (s.advance).rndCount = s.rndCount := rfl
@[simp] theorem State.advance_schedule (s : State) : (s.advance).schedule = s.schedule := rfl
@[simp] theorem State.advance_events (s : State) : (s.advance).events = s.events := rfl
@[simp] theorem State.advance_getV (s : State) (k : RegIdx) : (s.advance).getV k = s.getV k := rfl

/-! ### State.skipIf -/

@[simp] theorem State.skipIf_v (s : State) (c : Bool) : (s.skipIf c).v = s.v := rfl
@[simp] theorem State.skipIf_i (s : State) (c : Bool) : (s.skipIf c).i = s.i := rfl
@[simp] theorem State.skipIf_pc (s : State) (c : Bool) : (s.skipIf c).pc = if c then s.pc + 4#16 else s.pc + 2#16 := rfl
@[simp] theorem State.skipIf_stack (s : State) (c : Bool) : (s.skipIf c).stack = s.stack := rfl
@[simp] theorem State.skipIf_sp (s : State) (c : Bool) : (s.skipIf c).sp = s.sp := rfl
@[simp] theorem State.skipIf_dt (s : State) (c : Bool) : (s.skipIf c).dt = s.dt := rfl
@[simp] theorem State.skipIf_st (s : State) (c : Bool) : (s.skipIf c).st = s.st := rfl
@[simp] theorem State.skipIf_mem (s : State) (c : Bool) : (s.skipIf c).mem = s.mem := rfl
@[simp] theorem State.skipIf_fb (s : State) (c : Bool) : (s.skipIf c).fb = s.fb := rfl
@[simp] theorem State.skipIf_dp (s : State) (c : Bool) : (s.skipIf c).dp = s.dp := rfl
@[simp] theorem State.skipIf_keyCur (s : State) (c : Bool) : (s.skipIf c).keyCur = s.keyCur := rfl
@[simp] theorem State.skipIf_keyPrev (s : State) (c : Bool) : (s.skipIf c).keyPrev = s.keyPrev := rfl
@[simp] theorem State.skipIf_wk (s : State) (c : Bool) : (s.skipIf c).wk = false := rfl
@[simp] theorem State.skipIf_unk (s : State) (c : Bool) : (s.skipIf c).unk = s.unk := rfl
@[simp] theorem State.skipIf_fc (s : State) (c : Bool) : (s.skipIf c).fc = s.fc := rfl
@[simp] theorem State.skipIf_rndCount (s : State) (c : Bool) : (s.skipIf c).rndCount = s.rndCount := rfl
@[simp] theorem State.skipIf_schedule (s : State) (c : Bool) : (s.skipIf c).schedule = s.schedule := rfl
@[simp] theorem State.skipIf_events (s : State) (c : Bool) : (s.skipIf c).events = s.events := rfl
@[simp] theorem State.skipIf_getV (s : State) (c : Bool) (k : RegIdx) : (s.skipIf c).getV k = s.getV k := rfl

/-! ### State.jumpTo -/

@[simp] theorem State.jumpTo_v (s : State) (a : Word) : (s.jumpTo a).v = s.v := rfl
@[simp] theorem State.jumpTo_i (s : State) (a : Word) : (s.jumpTo a).i = s.i := rfl
@[simp] theorem State.jumpTo_pc (s : State) (a : Word) : (s.jumpTo a).pc = a := rfl
@[simp] theorem State.jumpTo_stack (s : State) (a : Word) : (s.jumpTo a).stack = s.stack := rfl
@[simp] theorem State.jumpTo_sp (s : State) (a : Word) : (s.jumpTo a).sp = s.sp := rfl
@[simp] theorem State.jumpTo_dt (s : State) (a : Word) : (s.jumpTo a).dt = s.dt := rfl
@[simp] theorem State.jumpTo_st (s : State) (a : Word) : (s.jumpTo a).st = s.st := rfl
@[simp] theorem State.jumpTo_mem (s : State) (a : Word) : (s.jumpTo a).mem = s.mem := rfl
@[simp] theorem State.jumpTo_fb (s : State) (a : Word) : (s.jumpTo a).fb = s.fb := rfl
@[simp] theorem State.jumpTo_dp (s : State) (a : Word) : (s.jumpTo a).dp = s.dp := rfl
@[simp] theorem State.jumpTo_keyCur (s : State) (a : Word) : (s.jumpTo a).keyCur = s.keyCur := rfl
@[simp] theorem State.jumpTo_keyPrev (s : State) (a : Word) : (s.jumpTo a).keyPrev = s.keyPrev := rfl
@[simp] theorem State.jumpTo_wk (s : State) (a : Word) : (s.jumpTo a).wk = false := rfl
@[simp] theorem State.jumpTo_unk (s : State) (a : Word) : (s.jumpTo a).unk = s.unk := rfl
@[simp] theorem State.jumpTo_fc (s : State) (a : Word) : (s.jumpTo a).fc = s.fc := rfl
@[simp] theorem State.jumpTo_rndCount (s : State) (a : Word) : (s.jumpTo a).rndCount = s.rndCount := rfl
@[simp] theorem State.jumpTo_schedule (s : State) (a : Word) : (s.jumpTo a).schedule = s.schedule := rfl
@[simp] theorem State.jumpTo_events (s : State) (a : Word) : (s.jumpTo a).events = s.events := rfl
@[simp] theorem State.jumpTo_getV (s : State) (a : Word) (k : RegIdx) : (s.jumpTo a).getV k = s.getV k := rfl

/-! ### State.waitHere -/

@[simp] theorem State.waitHere_v (s : State) : (s.waitHere).v = s.v := rfl
@[simp] theorem State.waitHere_i (s : State) : (s.waitHere).i = s.i := rfl
@[simp] theorem State.waitHere_pc (s : State) : (s.waitHere).pc = s.pc := rfl
@[simp] theorem State.waitHere_stack (s : State) : (s.waitHere).stack = s.stack := rfl
@[simp] theorem State.waitHere_sp (s : State) : (s.waitHere).sp = s.sp := rfl
@[simp] theorem State.waitHere_dt (s : State) : (s.waitHere).dt = s.dt := rfl
@[simp] theorem State.waitHere_st (s : State) : (s.waitHere).st = s.st := rfl
@[simp] theorem State.waitHere_mem (s : State) : (s.waitHere).mem = s.mem := rfl
@[simp] theorem State.waitHere_fb (s : State) : (s.waitHere).fb = s.fb := rfl
@[simp] theorem State.waitHere_dp (s : State) : (s.waitHere).dp = s.dp := rfl
@[simp] theorem State.waitHere_keyCur (s : State) : (s.waitHere).keyCur = s.keyCur := rfl
@[simp] theorem State.waitHere_keyPrev (s : State) : (s.waitHere).keyPrev = s.keyPrev := rfl
@[simp] theorem State.waitHere_wk (s : State) : (s.waitHere).wk = true := rfl
@[simp] theorem State.waitHere_unk (s : State) : (s.waitHere).unk = s.unk := rfl
@[simp] theorem State.waitHere_fc (s : State) : (s.waitHere).fc = s.fc := rfl
@[simp] theorem State.waitHere_rndCount (s : State) : (s.waitHere).rndCount = s.rndCount := rfl
@[simp] theorem State.waitHere_schedule (s : State) : (s.waitHere).schedule = s.schedule := rfl
@[simp] theorem State.waitHere_events (s : State) : (s.waitHere).events = s.events := rfl
@[simp] theorem State.waitHere_getV (s : State) (k : RegIdx) : (s.waitHere).getV k = s.getV k := rfl

/-! ### State.raise -/

@[simp] theorem State.raise_v (s : State) (c : FaultCause) : (s.raise c).v = s.v := rfl
@[simp] theorem State.raise_i (s : State) (c : FaultCause) : (s.raise c).i = s.i := rfl
@[simp] theorem State.raise_pc (s : State) (c : FaultCause) : (s.raise c).pc = s.pc := rfl
@[simp] theorem State.raise_stack (s : State) (c : FaultCause) : (s.raise c).stack = s.stack := rfl
@[simp] theorem State.raise_sp (s : State) (c : FaultCause) : (s.raise c).sp = s.sp := rfl
@[simp] theorem State.raise_dt (s : State) (c : FaultCause) : (s.raise c).dt = s.dt := rfl
@[simp] theorem State.raise_st (s : State) (c : FaultCause) : (s.raise c).st = s.st := rfl
@[simp] theorem State.raise_mem (s : State) (c : FaultCause) : (s.raise c).mem = s.mem := rfl
@[simp] theorem State.raise_fb (s : State) (c : FaultCause) : (s.raise c).fb = s.fb := rfl
@[simp] theorem State.raise_dp (s : State) (c : FaultCause) : (s.raise c).dp = s.dp := rfl
@[simp] theorem State.raise_keyCur (s : State) (c : FaultCause) : (s.raise c).keyCur = s.keyCur := rfl
@[simp] theorem State.raise_keyPrev (s : State) (c : FaultCause) : (s.raise c).keyPrev = s.keyPrev := rfl
@[simp] theorem State.raise_wk (s : State) (c : FaultCause) : (s.raise c).wk = s.wk := rfl
@[simp] theorem State.raise_unk (s : State) (c : FaultCause) : (s.raise c).unk = s.unk := rfl
@[simp] theorem State.raise_fc (s : State) (c : FaultCause) : (s.raise c).fc = c := rfl
@[simp] theorem State.raise_rndCount (s : State) (c : FaultCause) : (s.raise c).rndCount = s.rndCount := rfl
@[simp] theorem State.raise_schedule (s : State) (c : FaultCause) : (s.raise c).schedule = s.schedule := rfl
@[simp] theorem State.raise_events (s : State) (c : FaultCause) : (s.raise c).events = .fault c s.pc :: s.events := rfl
@[simp] theorem State.raise_getV (s : State) (c : FaultCause) (k : RegIdx) : (s.raise c).getV k = s.getV k := rfl

/-! ### State.reportUnknown -/

@[simp] theorem State.reportUnknown_v (s : State) (op : Word) : (s.reportUnknown op).v = s.v := rfl
@[simp] theorem State.reportUnknown_i (s : State) (op : Word) : (s.reportUnknown op).i = s.i := rfl
@[simp] theorem State.reportUnknown_pc (s : State) (op : Word) : (s.reportUnknown op).pc = s.pc + 2#16 := rfl
@[simp] theorem State.reportUnknown_stack (s : State) (op : Word) : (s.reportUnknown op).stack = s.stack := rfl
@[simp] theorem State.reportUnknown_sp (s : State) (op : Word) : (s.reportUnknown op).sp = s.sp := rfl
@[simp] theorem State.reportUnknown_dt (s : State) (op : Word) : (s.reportUnknown op).dt = s.dt := rfl
@[simp] theorem State.reportUnknown_st (s : State) (op : Word) : (s.reportUnknown op).st = s.st := rfl
@[simp] theorem State.reportUnknown_mem (s : State) (op : Word) : (s.reportUnknown op).mem = s.mem := rfl
@[simp] theorem State.reportUnknown_fb (s : State) (op : Word) : (s.reportUnknown op).fb = s.fb := rfl
@[simp] theorem State.reportUnknown_dp (s : State) (op : Word) : (s.reportUnknown op).dp = s.dp := rfl
@[simp] theorem State.reportUnknown_keyCur (s : State) (op : Word) : (s.reportUnknown op).keyCur = s.keyCur := rfl
@[simp] theorem State.reportUnknown_keyPrev (s : State) (op : Word) : (s.reportUnknown op).keyPrev = s.keyPrev := rfl
@[simp] theorem State.reportUnknown_wk (s : State) (op : Word) : (s.reportUnknown op).wk = false := rfl
@[simp] theorem State.reportUnknown_unk (s : State) (op : Word) : (s.reportUnknown op).unk = true := rfl
@[simp] theorem State.reportUnknown_fc (s : State) (op : Word) : (s.reportUnknown op).fc = s.fc := rfl
@[simp] theorem State.reportUnknown_rndCount (s : State) (op : Word) : (s.reportUnknown op).rndCount = s.rndCount := rfl
@[simp] theorem State.reportUnknown_schedule (s : State) (op : Word) : (s.reportUnknown op).schedule = s.schedule := rfl
@[simp] theorem State.reportUnknown_events (s : State) (op : Word) : (s.reportUnknown op).events = .unknownOpcode s.pc op :: s.events := rfl
@[simp] theorem State.reportUnknown_getV (s : State) (op : Word) (k : RegIdx) : (s.reportUnknown op).getV k = s.getV k := rfl

/-! ### State.tickTimers -/

@[simp] theorem State.tickTimers_v (s : State) : (s.tickTimers).v = s.v := rfl
@[simp] theorem State.tickTimers_i (s : State) : (s.tickTimers).i = s.i := rfl
@[simp] theorem State.tickTimers_pc (s : State) : (s.tickTimers).pc = s.pc := rfl
@[simp] theorem State.tickTimers_stack (s : State) : (s.tickTimers).stack = s.stack := rfl
@[simp] theorem State.tickTimers_sp (s : State) : (s.tickTimers).sp = s.sp := rfl
@[simp] theorem State.tickTimers_dt (s : State) : (s.tickTimers).dt = timerStep s.dt := rfl
@[simp] theorem State.tickTimers_st (s : State) : (s.tickTimers).st = timerStep s.st := rfl
@[simp] theorem State.tickTimers_mem (s : State) : (s.tickTimers).mem = s.mem := rfl
@[simp] theorem State.tickTimers_fb (s : State) : (s.tickTimers).fb = s.fb := rfl
@[simp] theorem State.tickTimers_dp (s : State) : (s.tickTimers).dp = s.dp := rfl
@[simp] theorem State.tickTimers_keyCur (s : State) : (s.tickTimers).keyCur = s.keyCur := rfl
@[simp] theorem State.tickTimers_keyPrev (s : State) : (s.tickTimers).keyPrev = s.keyPrev := rfl
@[simp] theorem State.tickTimers_wk (s : State) : (s.tickTimers).wk = s.wk := rfl
@[simp] theorem State.tickTimers_unk (s : State) : (s.tickTimers).unk = s.unk := rfl
@[simp] theorem State.tickTimers_fc (s : State) : (s.tickTimers).fc = s.fc := rfl
@[simp] theorem State.tickTimers_rndCount (s : State) : (s.tickTimers).rndCount = s.rndCount := rfl
@[simp] theorem State.tickTimers_schedule (s : State) : (s.tickTimers).schedule = s.schedule := rfl
@[simp] theorem State.tickTimers_events (s : State) : (s.tickTimers).events = s.events := rfl
@[simp] theorem State.tickTimers_getV (s : State) (k : RegIdx) : (s.tickTimers).getV k = s.getV k := rfl

/-! ### State.keyUpdate -/

@[simp] theorem State.keyUpdate_v (s : State) (w : Word) : (s.keyUpdate w).v = s.v := rfl
@[simp] theorem State.keyUpdate_i (s : State) (w : Word) : (s.keyUpdate w).i = s.i := rfl
@[simp] theorem State.keyUpdate_pc (s : State) (w : Word) : (s.keyUpdate w).pc = s.pc := rfl
@[simp] theorem State.keyUpdate_stack (s : State) (w : Word) : (s.keyUpdate w).stack = s.stack := rfl
@[simp] theorem State.keyUpdate_sp (s : State) (w : Word) : (s.keyUpdate w).sp = s.sp := rfl
@[simp] theorem State.keyUpdate_dt (s : State) (w : Word) : (s.keyUpdate w).dt = s.dt := rfl
@[simp] theorem State.keyUpdate_st (s : State) (w : Word) : (s.keyUpdate w).st = s.st := rfl
@[simp] theorem State.keyUpdate_mem (s : State) (w : Word) : (s.keyUpdate w).mem = s.mem := rfl
@[simp] theorem State.keyUpdate_fb (s : State) (w : Word) : (s.keyUpdate w).fb = s.fb := rfl
@[simp] theorem State.keyUpdate_dp (s : State) (w : Word) : (s.keyUpdate w).dp = s.dp := rfl
@[simp] theorem State.keyUpdate_keyCur (s : State) (w : Word) : (s.keyUpdate w).keyCur = w := rfl
@[simp] theorem State.keyUpdate_keyPrev (s : State) (w : Word) : (s.keyUpdate w).keyPrev = s.keyCur := rfl
@[simp] theorem State.keyUpdate_wk (s : State) (w : Word) : (s.keyUpdate w).wk = s.wk := rfl
@[simp] theorem State.keyUpdate_unk (s : State) (w : Word) : (s.keyUpdate w).unk = s.unk := rfl
@[simp] theorem State.keyUpdate_fc (s : State) (w : Word) : (s.keyUpdate w).fc = s.fc := rfl
@[simp] theorem State.keyUpdate_rndCount (s : State) (w : Word) : (s.keyUpdate w).rndCount = s.rndCount := rfl
@[simp] theorem State.keyUpdate_schedule (s : State) (w : Word) : (s.keyUpdate w).schedule = s.schedule := rfl
@[simp] theorem State.keyUpdate_events (s : State) (w : Word) : (s.keyUpdate w).events = s.events := rfl
@[simp] theorem State.keyUpdate_getV (s : State) (w : Word) (k : RegIdx) : (s.keyUpdate w).getV k = s.getV k := rfl

/-! ### State.drawAck -/

@[simp] theorem State.drawAck_v (s : State) : (s.drawAck).v = s.v := rfl
@[simp] theorem State.drawAck_i (s : State) : (s.drawAck).i = s.i := rfl
@[simp] theorem State.drawAck_pc (s : State) : (s.drawAck).pc = s.pc := rfl
@[simp] theorem State.drawAck_stack (s : State) : (s.drawAck).stack = s.stack := rfl
@[simp] theorem State.drawAck_sp (s : State) : (s.drawAck).sp = s.sp := rfl
@[simp] theorem State.drawAck_dt (s : State) : (s.drawAck).dt = s.dt := rfl
@[simp] theorem State.drawAck_st (s : State) : (s.drawAck).st = s.st := rfl
@[simp] theorem State.drawAck_mem (s : State) : (s.drawAck).mem = s.mem := rfl
@[simp] theorem State.drawAck_fb (s : State) : (s.drawAck).fb = s.fb := rfl
@[simp] theorem State.drawAck_dp (s : State) : (s.drawAck).dp = false := rfl
@[simp] theorem State.drawAck_keyCur (s : State) : (s.drawAck).keyCur = s.keyCur := rfl
@[simp] theorem State.drawAck_keyPrev (s : State) : (s.drawAck).keyPrev = s.keyPrev := rfl
@[simp] theorem State.drawAck_wk (s : State) : (s.drawAck).wk = s.wk := rfl
@[simp] theorem State.drawAck_unk (s : State) : (s.drawAck).unk = s.unk := rfl
@[simp] theorem State.drawAck_fc (s : State) : (s.drawAck).fc = s.fc := rfl
@[simp] theorem State.drawAck_rndCount (s : State) : (s.drawAck).rndCount = s.rndCount := rfl
@[simp] theorem State.drawAck_schedule (s : State) : (s.drawAck).schedule = s.schedule := rfl
@[simp] theorem State.drawAck_events (s : State) : (s.drawAck).events = s.events := rfl
@[simp] theorem State.drawAck_getV (s : State) (k : RegIdx) : (s.drawAck).getV k = s.getV k := rfl

/-! ### State.request -/

@[simp] theorem State.request_v (s : State) (ops : List HostOp) : (s.request ops).v = s.v := rfl
@[simp] theorem State.request_i (s : State) (ops : List HostOp) : (s.request ops).i = s.i := rfl
@[simp] theorem State.request_pc (s : State) (ops : List HostOp) : (s.request ops).pc = s.pc := rfl
@[simp] theorem State.request_stack (s : State) (ops : List HostOp) : (s.request ops).stack = s.stack := rfl
@[simp] theorem State.request_sp (s : State) (ops : List HostOp) : (s.request ops).sp = s.sp := rfl
@[simp] theorem State.request_dt (s : State) (ops : List HostOp) : (s.request ops).dt = s.dt := rfl
@[simp] theorem State.request_st (s : State) (ops : List HostOp) : (s.request ops).st = s.st := rfl
@[simp] theorem State.request_mem (s : State) (ops : List HostOp) : (s.request ops).mem = s.mem := rfl
@[simp] theorem State.request_fb (s : State) (ops : List HostOp) : (s.request ops).fb = s.fb := rfl
@[simp] theorem State.request_dp (s : State) (ops : List HostOp) : (s.request ops).dp = s.dp := rfl
@[simp] theorem State.request_keyCur (s : State) (ops : List HostOp) : (s.request ops).keyCur = s.keyCur := rfl
@[simp] theorem State.request_keyPrev (s : State) (ops : List HostOp) : (s.request ops).keyPrev = s.keyPrev := rfl
@[simp] theorem State.request_wk (s : State) (ops : List HostOp) : (s.request ops).wk = s.wk := rfl
@[simp] theorem State.request_unk (s : State) (ops : List HostOp) : (s.request ops).unk = s.unk := rfl
@[simp] theorem State.request_fc (s : State) (ops : List HostOp) : (s.request ops).fc = s.fc := rfl
@[simp] theorem State.request_rndCount (s : State) (ops : List HostOp) : (s.request ops).rndCount = s.rndCount := rfl
@[simp] theorem State.request_schedule (s : State) (ops : List HostOp) : (s.request ops).schedule = s.schedule ++ ops := rfl
@[simp] theorem State.request_events (s : State) (ops : List HostOp) : (s.request ops).events = s.events := rfl
@[simp] theorem State.request_getV (s : State) (ops : List HostOp) (k : RegIdx) : (s.request ops).getV k = s.getV k := rfl

/-! ### State.placeOpcode -/

@[simp] theorem State.placeOpcode_v (s : State) (op : Word) : (s.placeOpcode op).v = s.v := rfl
@[simp] theorem State.placeOpcode_i (s : State) (op : Word) : (s.placeOpcode op).i = s.i := rfl
@[simp] theorem State.placeOpcode_pc (s : State) (op : Word) : (s.placeOpcode op).pc = s.fetchPlace := rfl
@[simp] theorem State.placeOpcode_stack (s : State) (op : Word) : (s.placeOpcode op).stack = s.stack := rfl
@[simp] theorem State.placeOpcode_sp (s : State) (op : Word) : (s.placeOpcode op).sp = s.sp := rfl
@[simp] theorem State.placeOpcode_dt (s : State) (op : Word) : (s.placeOpcode op).dt = s.dt := rfl
@[simp] theorem State.placeOpcode_st (s : State) (op : Word) : (s.placeOpcode op).st = s.st := rfl
@[simp] theorem State.placeOpcode_mem (s : State) (op : Word) : (s.placeOpcode op).mem = Memory.writeBytes s.mem s.fetchPlace.toNat [opcodeHigh op, opcodeLow op] := rfl
@[simp] theorem State.placeOpcode_fb (s : State) (op : Word) : (s.placeOpcode op).fb = s.fb := rfl
@[simp] theorem State.placeOpcode_dp (s : State) (op : Word) : (s.placeOpcode op).dp = s.dp := rfl
@[simp] theorem State.placeOpcode_keyCur (s : State) (op : Word) : (s.placeOpcode op).keyCur = s.keyCur := rfl
@[simp] theorem State.placeOpcode_keyPrev (s : State) (op : Word) : (s.placeOpcode op).keyPrev = s.keyPrev := rfl
@[simp] theorem State.placeOpcode_wk (s : State) (op : Word) : (s.placeOpcode op).wk = s.wk := rfl
@[simp] theorem State.placeOpcode_unk (s : State) (op : Word) : (s.placeOpcode op).unk = s.unk := rfl
@[simp] theorem State.placeOpcode_fc (s : State) (op : Word) : (s.placeOpcode op).fc = .noFault := rfl
@[simp] theorem State.placeOpcode_rndCount (s : State) (op : Word) : (s.placeOpcode op).rndCount = s.rndCount := rfl
@[simp] theorem State.placeOpcode_schedule (s : State) (op : Word) : (s.placeOpcode op).schedule = [] := rfl
@[simp] theorem State.placeOpcode_events (s : State) (op : Word) : (s.placeOpcode op).events = s.events := rfl
@[simp] theorem State.placeOpcode_getV (s : State) (op : Word) (k : RegIdx) : (s.placeOpcode op).getV k = s.getV k := rfl

/-! ### Registers -/

/-- Read after write of a register (10_state.md R20). -/
@[simp] theorem State.setV_getV (s : State) (x : RegIdx) (b : Byte) (k : RegIdx) :
    (s.setV x b).getV k = if k = x then b else s.getV k := by
  simp only [State.getV, State.setV, Vector.getElem_set, BitVec.toNat_inj]
  by_cases h : x = k
  · simp [h]
  · simp [h, Ne.symm h]

/-- The flag write stands over the result write (10_state.md R21, 42_alu.md R173). -/
@[simp] theorem State.setResultFlag_getV (s : State) (x : RegIdx) (r f : Byte) (k : RegIdx) :
    (s.setResultFlag x r f).getV k = if k = regF then f else if k = x then r else s.getV k := by
  simp [State.setResultFlag]

/-- The range load reaches exactly the registers up to `x` (45_timers_index_memory.md R238). -/
@[simp] theorem State.loadV_getV (s : State) (x : RegIdx) (a : Nat) (k : RegIdx) :
    (s.loadV x a).getV k =
      if k.toNat ≤ x.toNat then Memory.read s.mem (a + k.toNat) else s.getV k := by
  simp [State.getV, State.loadV]

/-- Two states with the same registers, read one by one, have the same register file. -/
theorem State.v_ext {s t : State} (h : ∀ k : RegIdx, t.getV k = s.getV k) : t.v = s.v := by
  apply Vector.ext
  intro j hj
  have := h (BitVec.ofNat 4 j)
  simpa [State.getV, BitVec.toNat_ofNat, Nat.mod_eq_of_lt hj] using this

/-- Register `j` is byte `j` of the stored range (R237). -/
theorem State.bytesV_getElem (s : State) (x : RegIdx) (j : Nat) (h : j < (s.bytesV x).length) :
    (s.bytesV x)[j] = s.getV (BitVec.ofNat 4 j) := by
  have hj : j < 16 := by simp [State.bytesV] at h; omega
  simp [State.bytesV, State.getV, BitVec.toNat_ofNat, Nat.mod_eq_of_lt hj]

/-- The stored range has `x + 1` bytes (R237). -/
@[simp] theorem State.bytesV_length (s : State) (x : RegIdx) : (s.bytesV x).length = x.toNat + 1 := by
  have := x.isLt
  simp [State.bytesV]
  omega

end Sys2Proof.Machine
end

