-- ==== Sys2Proof/Laws/Draw.lean ====
section
/-! SUPPORT. The rasterizer: what a draw does to every pixel and to the collision flag (spec/43_display.md R192 to R196). -/

namespace Sys2Proof.Machine

/-- Flipping a pixel of the grid changes that pixel and no other. -/
theorem pixel_flipPixel (fb : Vector (BitVec 64) 32) {row col : Nat} (hr : row < 32) (hc : col < 64)
    (r c : Nat) :
    pixel (flipPixel fb row col) r c = (pixel fb r c ^^ (decide (r = row) && decide (c = col))) := by
  rw [flipPixel, dif_pos hr]
  by_cases h : r < 32
  · rw [pixel, dif_pos h, pixel, dif_pos h, Vector.getElem_set]
    by_cases hrow : row = r
    · subst hrow
      by_cases hcol : c = col
      · subst hcol
        simp [hc]
      · simp [hcol, Ne.symm hcol]
    · simp [hrow, Ne.symm hrow]
  · have hne : r ≠ row := by omega
    simp [pixel, h, hne]

/-- A cleared framebuffer has every pixel 0. -/
@[simp] theorem pixel_clear (r c : Nat) : pixel (Vector.replicate 32 0#64) r c = false := by
  unfold pixel
  split <;> simp

/-- Whether the first `k` bits of a sprite byte set column `c`. -/
def setsColumn (x0 : Byte) (b : Byte) (k c : Nat) : Bool :=
  (List.range k).any fun i => spriteBit b i && decide (spriteColumn x0 i = c)

theorem setsColumn_succ (x0 b : Byte) (k c : Nat) :
    setsColumn x0 b (k + 1) c = (setsColumn x0 b k c || (spriteBit b k && decide (spriteColumn x0 k = c))) := by
  simp [setsColumn, List.range_succ]

/-- Of eight bit offsets, two different ones fall on different columns (R192). -/
theorem setsColumn_fresh (x0 b : Byte) {k : Nat} (hk : k < 8) : setsColumn x0 b k (spriteColumn x0 k) = false := by
  simp only [setsColumn, List.any_eq_false, List.mem_range, Bool.and_eq_true, decide_eq_true_eq, not_and]
  intro i hi _ h
  simp only [spriteColumn, Config.fbWidth] at h
  omega

/-- `k` bits of one sprite row, drawn: every pixel, and the collision flag (R192, R196). -/
theorem drawBits_spec (x0 b : Byte) {row : Nat} (hr : row < 32) (d : Drawing) {k : Nat} (hk : k ≤ 8) :
    (∀ r c, pixel ((List.range k).foldl (drawBit x0 row b) d).fb r c =
        (pixel d.fb r c ^^ (decide (r = row) && setsColumn x0 b k c))) ∧
      (((List.range k).foldl (drawBit x0 row b) d).hit = true ↔
        d.hit = true ∨ ∃ c, setsColumn x0 b k c = true ∧ pixel d.fb row c = true) := by
  induction k with
  | zero => simp [setsColumn]
  | succ k ih =>
    obtain ⟨ihp, ihh⟩ := ih (by omega)
    have fresh := setsColumn_fresh x0 b (show k < 8 by omega)
    have hcol : spriteColumn x0 k < 64 := Nat.mod_lt _ (by decide)
    rw [List.range_succ, List.foldl_append, List.foldl_cons, List.foldl_nil]
    generalize (List.range k).foldl (drawBit x0 row b) d = e at ihp ihh
    cases hb : spriteBit b k with
    | false =>
      simp only [drawBit, hb, setsColumn_succ, Bool.false_and, Bool.or_false]
      exact ⟨ihp, ihh⟩
    | true =>
      simp only [drawBit, hb, if_true, setsColumn_succ, Bool.true_and]
      refine ⟨fun r c => ?_, ?_⟩
      · rw [pixel_flipPixel _ hr hcol, ihp]
        by_cases hc : c = spriteColumn x0 k
        · subst hc
          simp [fresh]
        · simp [hc, Ne.symm hc]
      · rw [Bool.or_eq_true, ihh, ihp, fresh]
        simp only [Bool.and_false, Bool.xor_false, Bool.or_eq_true, decide_eq_true_eq]
        constructor
        · rintro ((h | ⟨c, h1, h2⟩) | h)
          · exact .inl h
          · exact .inr ⟨c, .inl h1, h2⟩
          · exact .inr ⟨_, .inr rfl, h⟩
        · rintro (h | ⟨c, h1 | h1, h2⟩)
          · exact .inl (.inl h)
          · exact .inl (.inr ⟨c, h1, h2⟩)
          · subst h1
            exact .inr h2

/-- Whether the first `n` rows of a sprite set pixel (`r`, `c`). -/
def setsPixel (mem : List Host.Cell) (x0 y0 : Byte) (base n r c : Nat) : Bool :=
  (List.range n).any fun j =>
    decide (spriteRow y0 j = r) && setsColumn x0 (Memory.read mem (base + j)) 8 c

theorem setsPixel_succ (mem : List Host.Cell) (x0 y0 : Byte) (base n r c : Nat) :
    setsPixel mem x0 y0 base (n + 1) r c =
      (setsPixel mem x0 y0 base n r c ||
        (decide (spriteRow y0 n = r) && setsColumn x0 (Memory.read mem (base + n)) 8 c)) := by
  simp [setsPixel, List.range_succ]

/-- Different sprite rows fall on different rows (R192). -/
theorem setsPixel_fresh (mem : List Host.Cell) (x0 y0 : Byte) (base n c : Nat) :
    setsPixel mem x0 y0 base n (spriteRow y0 n) c = false := by
  simp only [setsPixel, List.any_eq_false, List.mem_range, Bool.and_eq_true, decide_eq_true_eq, not_and]
  intro i hi h
  simp only [spriteRow] at h
  omega

/-- A whole draw: every pixel of the grid, and the collision flag (R192, R195, R196). -/
theorem drawSprite_spec (mem : List Host.Cell) (x0 y0 : Byte) (base n : Nat) (fb : Vector (BitVec 64) 32) :
    (∀ r c, pixel (drawSprite mem x0 y0 base n fb).fb r c =
        (pixel fb r c ^^ (decide (r < 32) && setsPixel mem x0 y0 base n r c))) ∧
      ((drawSprite mem x0 y0 base n fb).hit = true ↔
        ∃ r c, r < 32 ∧ setsPixel mem x0 y0 base n r c = true ∧ pixel fb r c = true) := by
  induction n with
  | zero => simp [drawSprite, setsPixel]
  | succ n ih =>
    obtain ⟨ihp, ihh⟩ := ih
    have fresh := setsPixel_fresh mem x0 y0 base n
    rw [drawSprite] at ihp ihh ⊢
    rw [List.range_succ, List.foldl_append, List.foldl_cons, List.foldl_nil]
    generalize (List.range n).foldl (drawSpriteRow mem x0 y0 base) { fb := fb, hit := false } = e at ihp ihh
    by_cases hclip : 32 ≤ spriteRow y0 n
    · have hd : drawSpriteRow mem x0 y0 base e n = e := by simp [drawSpriteRow, Config.fbHeight, hclip]
      have gone : ∀ r c, r < 32 → setsPixel mem x0 y0 base (n + 1) r c = setsPixel mem x0 y0 base n r c := by
        intro r c hr
        have : spriteRow y0 n ≠ r := by omega
        simp [setsPixel_succ, this]
      rw [hd]
      refine ⟨fun r c => ?_, ?_⟩
      · rw [ihp]
        by_cases hr : r < 32
        · rw [gone r c hr]
        · simp [hr]
      · rw [ihh]
        constructor
        · rintro ⟨r, c, hr, h1, h2⟩
          exact ⟨r, c, hr, (gone r c hr).trans h1, h2⟩
        · rintro ⟨r, c, hr, h1, h2⟩
          exact ⟨r, c, hr, (gone r c hr).symm.trans h1, h2⟩
    · have hrow : spriteRow y0 n < 32 := by omega
      have hd : drawSpriteRow mem x0 y0 base e n =
          (List.range 8).foldl (drawBit x0 (spriteRow y0 n) (Memory.read mem (base + n))) e := by
        simp [drawSpriteRow, Config.fbHeight, hclip]
      obtain ⟨bp, bh⟩ := drawBits_spec x0 (Memory.read mem (base + n)) hrow e (le_refl 8)
      rw [hd]
      refine ⟨fun r c => ?_, ?_⟩
      · rw [bp, ihp, setsPixel_succ]
        by_cases hr : r = spriteRow y0 n
        · subst hr
          simp [fresh, hrow]
        · simp [hr, Ne.symm hr]
      · rw [bh, ihh]
        simp only [setsPixel_succ, Bool.or_eq_true, Bool.and_eq_true, decide_eq_true_eq]
        constructor
        · rintro (⟨r, c, hr, h1, h2⟩ | ⟨c, h1, h2⟩)
          · exact ⟨r, c, hr, .inl h1, h2⟩
          · refine ⟨_, c, hrow, .inr ⟨rfl, h1⟩, ?_⟩
            rw [ihp, fresh] at h2
            simpa using h2
        · rintro ⟨r, c, hr, h1 | ⟨h1, h1'⟩, h2⟩
          · exact .inl ⟨r, c, hr, h1, h2⟩
          · subst h1
            refine .inr ⟨c, h1', ?_⟩
            rw [ihp, fresh]
            simpa using h2

end Sys2Proof.Machine
end

