-- ==== Sys2Proof/Laws/Memory.lean ====
section
/-! SUPPORT. Memory: reads after writes, the canonical form kept by every memory operation, and equal memories as equal data (spec/20_memory.md). -/

namespace Sys2Proof.Machine.Memory

/-- Below a canonical list's addresses, everything reads as unlisted. -/
theorem read_below {m : List Host.Cell} {low a : Nat} (h : wfFrom low m = true) (ha : a < low) :
    read m a = unlisted a := by
  induction m generalizing low with
  | nil => rfl
  | cons cell rest ih =>
    obtain ⟨k, b⟩ := cell
    simp only [wfFrom, Bool.and_eq_true, decide_eq_true_eq] at h
    rw [read, if_neg (by omega), ih h.2 (by omega)]

/-- The canonical form from a lower address on. -/
theorem wfFrom_mono {m : List Host.Cell} {low low' : Nat} (h : wfFrom low m = true) (hl : low' ≤ low) :
    wfFrom low' m = true := by
  cases m with
  | nil => rfl
  | cons cell rest =>
    obtain ⟨k, b⟩ := cell
    simp only [wfFrom, Bool.and_eq_true, decide_eq_true_eq] at h ⊢
    exact ⟨⟨⟨by omega, h.1.1.2⟩, h.1.2⟩, h.2⟩

/-- A write leaves every other address as it was, whatever the list. -/
theorem read_write_other (m : List Host.Cell) {a c : Nat} (h : c ≠ a) (b : Byte) :
    read (write m a b) c = read m c := by
  induction m with
  | nil =>
    rw [write]
    split
    · rfl
    · simp only [read, if_neg (Ne.symm h)]
  | cons cell rest ih =>
    obtain ⟨k, v⟩ := cell
    rw [write]
    split
    · split
      · rfl
      · rw [read, if_neg (Ne.symm h)]
    · split
      · next hk =>
        subst hk
        split
        · rw [read, if_neg (Ne.symm h)]
        · rw [read, read, if_neg (Ne.symm h), if_neg (Ne.symm h)]
      · rw [read, read, ih]

/-- Read after write at the same address, for a canonical memory. -/
theorem read_write_same {m : List Host.Cell} {low : Nat} (h : wfFrom low m = true) (a : Nat) (b : Byte) :
    read (write m a b) a = b := by
  induction m generalizing low with
  | nil =>
    rw [write]
    split
    · next hb => exact hb.symm
    · rw [read, if_pos rfl]
  | cons cell rest ih =>
    obtain ⟨k, v⟩ := cell
    simp only [wfFrom, Bool.and_eq_true, decide_eq_true_eq] at h
    rw [write]
    split
    · next hlt =>
      split
      · next hb => rw [read, if_neg (by omega), read_below h.2 (by omega), hb]
      · rw [read, if_pos rfl]
    · split
      · next hk =>
        subst hk
        split
        · next hb => rw [read_below h.2 (Nat.lt_succ_self _), hb]
        · rw [read, if_pos rfl]
      · next hk => rw [read, if_neg (Ne.symm hk), ih h.2]

/-- Read after write, for a canonical memory. -/
theorem read_write {m : List Host.Cell} {low : Nat} (h : wfFrom low m = true) (a : Nat) (b : Byte) (c : Nat) :
    read (write m a b) c = if c = a then b else read m c := by
  split
  · next hc => rw [hc, read_write_same h]
  · next hc => rw [read_write_other m hc]

/-- A range write leaves every address outside the range as it was, whatever the list. -/
theorem read_writeBytes_outside (m : List Host.Cell) (a : Nat) (bs : List Byte) {c : Nat}
    (h : c < a ∨ a + bs.length ≤ c) : read (writeBytes m a bs) c = read m c := by
  induction bs generalizing m a with
  | nil => rfl
  | cons b rest ih =>
    simp only [List.length_cons] at h
    rw [writeBytes, ih _ _ (by omega), read_write_other m (by omega)]

/-- A write keeps the canonical form. -/
theorem wfFrom_write {m : List Host.Cell} {low : Nat} (h : wfFrom low m = true) {a : Nat} (hl : low ≤ a)
    (ha : a < Config.memSize) (b : Byte) : wfFrom low (write m a b) = true := by
  induction m generalizing low with
  | nil => by_cases hb : b = unlisted a <;> simp_all [write, wfFrom]
  | cons cell rest ih =>
    obtain ⟨k, v⟩ := cell
    have hw := h
    simp only [wfFrom, Bool.and_eq_true, decide_eq_true_eq] at h
    rw [write]
    by_cases h1 : a < k
    · rw [if_pos h1]
      by_cases hb : b = unlisted a
      · rw [if_pos hb]
        exact hw
      · rw [if_neg hb]
        simp only [wfFrom, Bool.and_eq_true, decide_eq_true_eq]
        exact ⟨⟨⟨hl, ha⟩, hb⟩, ⟨⟨by omega, h.1.1.2⟩, h.1.2⟩, h.2⟩
    · rw [if_neg h1]
      by_cases h2 : a = k
      · subst h2
        rw [if_pos rfl]
        by_cases hb : b = unlisted a
        · rw [if_pos hb]
          exact wfFrom_mono h.2 (by omega)
        · rw [if_neg hb]
          simp only [wfFrom, Bool.and_eq_true, decide_eq_true_eq]
          exact ⟨⟨⟨hl, ha⟩, hb⟩, h.2⟩
      · rw [if_neg h2]
        simp only [wfFrom, Bool.and_eq_true, decide_eq_true_eq]
        exact ⟨⟨⟨h.1.1.1, h.1.1.2⟩, h.1.2⟩, ih h.2 (by omega)⟩

/-- A write keeps `wf`. -/
theorem wf_write {m : List Host.Cell} (h : wf m = true) {a : Nat} (ha : a < Config.memSize) (b : Byte) :
    wf (write m a b) = true := wfFrom_write h (Nat.zero_le a) ha b

/-- A range write inside the address space keeps `wf`. -/
theorem wf_writeBytes {m : List Host.Cell} (h : wf m = true) {a : Nat} (bs : List Byte)
    (ha : a + bs.length ≤ Config.memSize) : wf (writeBytes m a bs) = true := by
  induction bs generalizing m a with
  | nil => exact h
  | cons b rest ih =>
    simp only [List.length_cons] at ha
    exact ih (wf_write h (by omega) b) (by omega)

/-- Read after a range write, for a canonical memory: byte `c - a` inside the range, else as before. -/
theorem read_writeBytes {m : List Host.Cell} (h : wf m = true) (a : Nat) (bs : List Byte)
    (ha : a + bs.length ≤ Config.memSize) (c : Nat) :
    read (writeBytes m a bs) c =
      if hc : a ≤ c ∧ c < a + bs.length then bs[c - a]'(by omega) else read m c := by
  induction bs generalizing m a with
  | nil =>
    rw [dif_neg (by simp)]
    rfl
  | cons b rest ih =>
    simp only [List.length_cons] at ha
    rw [writeBytes, ih (wf_write h (by omega) b) (a + 1) (by omega)]
    by_cases h1 : a + 1 ≤ c ∧ c < a + 1 + rest.length
    · rw [dif_pos h1, dif_pos (by simp only [List.length_cons]; omega)]
      obtain ⟨j, rfl⟩ : ∃ j, c = a + 1 + j := ⟨c - (a + 1), by omega⟩
      simp [show a + 1 + j - a = j + 1 by omega]
    · rw [dif_neg h1, read_write h]
      by_cases h2 : c = a
      · subst h2
        rw [if_pos rfl, dif_pos (by simp)]
        simp
      · rw [if_neg h2, dif_neg (by simp only [List.length_cons]; omega)]

/-- Equal memories are equal data: canonical memories that read the same are the same list. -/
theorem ext_of_read {m m' : List Host.Cell} {low : Nat} (h : wfFrom low m = true) (h' : wfFrom low m' = true)
    (hr : ∀ a, read m a = read m' a) : m = m' := by
  induction m generalizing m' low with
  | nil =>
    cases m' with
    | nil => rfl
    | cons cell rest =>
      obtain ⟨k, b⟩ := cell
      simp only [wfFrom, Bool.and_eq_true, decide_eq_true_eq] at h'
      exact absurd (by simpa [read] using (hr k).symm) h'.1.2
  | cons cell rest ih =>
    obtain ⟨k, b⟩ := cell
    have hw := h
    simp only [wfFrom, Bool.and_eq_true, decide_eq_true_eq] at h
    cases m' with
    | nil => exact absurd (by simpa [read] using hr k) h.1.2
    | cons cell' rest' =>
      obtain ⟨k', b'⟩ := cell'
      have hw' := h'
      simp only [wfFrom, Bool.and_eq_true, decide_eq_true_eq] at h'
      have hk : k = k' := by
        rcases Nat.lt_trichotomy k k' with hlt | heq | hgt
        · have := hr k
          rw [read, if_pos rfl, read, if_neg (by omega), read_below h'.2 (by omega)] at this
          exact absurd this h.1.2
        · exact heq
        · have := hr k'
          rw [read, if_neg (by omega), read, if_pos rfl, read_below h.2 (by omega)] at this
          exact absurd this.symm h'.1.2
      subst hk
      have hb : b = b' := by simpa [read] using hr k
      subst hb
      have : rest = rest' := ih h.2 h'.2 fun a => by
        by_cases ha : k = a
        · subst ha
          rw [read_below h.2 (by omega), read_below h'.2 (by omega)]
        · simpa [read, ha] using hr a
      rw [this]

/-- Memory after reset is canonical. -/
theorem wf_reset : wf State.reset.mem = true := rfl

end Sys2Proof.Machine.Memory
end

