-- ==== Sys2Proof/Laws/Ops.lean ====
section
/-! SUPPORT. One specification per shared operation: bounds check, fetch, fault entry, key priority, sprite bits, ALU results, the host's operations. -/

namespace Sys2Proof.Machine

/-- The address space has 4096 bytes (00_scope.md R5). -/
theorem memSize_eq : Config.memSize = 4096 := rfl

/-! ### Bounds and fetch (spec/20_memory.md R68, R64) -/

/-- The bounds check fails exactly where the range is not empty and passes 0xFFF. -/
theorem rangePassesEnd_iff (base len : Nat) :
    rangePassesEnd base len = true ↔ 1 ≤ len ∧ 0xFFF < base + len - 1 := by
  have := memSize_eq
  rw [rangePassesEnd, Bool.and_eq_true, decide_eq_true_iff, decide_eq_true_iff]
  omega

/-- A range that does not pass the end, when not empty, lies in the address space. -/
theorem rangePassesEnd_false {base len : Nat} (h : rangePassesEnd base len = false) (hl : 1 ≤ len) :
    base + len ≤ Config.memSize := by
  have : ¬(1 ≤ len ∧ 0xFFF < base + len - 1) := by rw [← rangePassesEnd_iff, h]; decide
  have := memSize_eq
  omega

/-- Fetch fails exactly where `PC + 1 > 0xFFF`. -/
theorem State.fetch_none_iff (s : State) : s.fetch = none ↔ 0xFFF < s.pc.toNat + 1 := by
  have := memSize_eq
  rw [State.fetch]
  split
  · exact iff_of_true rfl (by omega)
  · exact iff_of_false (by simp) (by omega)

/-- What a fetch that succeeds reads. -/
theorem State.fetch_some {s : State} {op : Word} (h : s.fetch = some op) :
    s.pc.toNat + 1 ≤ 0xFFF ∧
      op = assembleOpcode (Memory.read s.mem s.pc.toNat) (Memory.read s.mem (s.pc.toNat + 1)) := by
  have := memSize_eq
  rw [State.fetch] at h
  split at h
  · cases h
  · next hp => exact ⟨by omega, (Option.some.inj h).symm⟩

/-- A fetch inside the address space succeeds. -/
theorem State.fetch_eq {s : State} (h : s.pc.toNat + 1 ≤ 0xFFF) :
    s.fetch = some (assembleOpcode (Memory.read s.mem s.pc.toNat) (Memory.read s.mem (s.pc.toNat + 1))) := by
  rw [State.fetch, if_neg (by have := memSize_eq; omega)]

/-- `opcodeAt` is the big-endian word of the two bytes at `PC` (R64). -/
theorem opcodeAt_eq (s : State) :
    opcodeAt s = assembleOpcode (Memory.read s.mem s.pc.toNat) (Memory.read s.mem (s.pc.toNat + 1)) := by
  apply BitVec.eq_of_toNat_eq
  rw [opcodeAt, BitVec.toNat_ofNat, ← assembleOpcode_toNat, Nat.mod_eq_of_lt (BitVec.isLt _)]

/-- What a fetch inside the address space answers. -/
theorem State.fetch_opcodeAt {s : State} (h : s.pc.toNat + 1 ≤ 0xFFF) : s.fetch = some (opcodeAt s) := by
  rw [opcodeAt_eq]
  exact State.fetch_eq h

/-- A fetch that succeeds answers the opcode at `PC`, which lies in the address space. -/
theorem State.fetch_some_opcodeAt {s : State} {op : Word} (h : s.fetch = some op) :
    s.pc.toNat + 1 ≤ 0xFFF ∧ op = opcodeAt s := by
  rw [opcodeAt_eq]
  exact State.fetch_some h

/-! ### Frames -/

/-- Fault entry as a relation (60_exceptions.md R308). -/
theorem State.raise_entersFault (s : State) (c : FaultCause) : EntersFault c s (s.raise c) := by
  refine ⟨rfl, rfl, fun p hp => ?_⟩
  cases p <;> simp_all [Piece.Same]

/-- Nothing changes from a state to itself. -/
theorem ChangesOnly.refl (ps : List Piece) (s : State) : ChangesOnly ps s s := by
  intro p _
  cases p <;> simp [Piece.Same]

/-! ### Keys (44_keypad.md R210, R213, R214) -/

/-- A key rises where it was up and is down. -/
theorem State.rising_getLsbD (s : State) {k : Nat} (hk : k < 16) :
    s.rising.getLsbD k = true ↔ risesAt s k := by
  simp [State.rising, risesAt, hk, and_comm]

/-- No key: every bit is 0. -/
theorem leastKey_none_iff (w : Word) : leastKey w = none ↔ ∀ k < 16, w.getLsbD k = false := by
  simp [leastKey, List.find?_eq_none]

/-- The least key: its bit is 1 and every lower one 0. -/
theorem leastKey_some {w : Word} {k : Nat} (h : leastKey w = some k) :
    k < 16 ∧ w.getLsbD k = true ∧ ∀ j < k, w.getLsbD j = false := by
  rw [leastKey, List.find?_range_eq_some] at h
  obtain ⟨h1, h2, h3⟩ := h
  exact ⟨by simpa using h2, h1, fun j hj => by simpa using h3 j hj⟩

/-- The selected key as a number: the value modulo 16. -/
theorem selectedKey_toNat (b : Byte) : (selectedKey b).toNat = b.toNat % 16 := by
  simp [selectedKey]

/-! ### Parameters at the values the spec takes (00_scope.md R6) -/

/-- The shift operand is `V[x]` (42_alu.md R168, R170). -/
@[simp] theorem shiftOperand_eq (x y : RegIdx) (s : State) : shiftOperand x y s = s.getV x := rfl

/-- Bit 7 of a sprite byte is its leftmost pixel (43_display.md R193). -/
@[simp] theorem spriteBit_eq (b : Byte) (c : Nat) : spriteBit b c = b.getLsbD (7 - c) := rfl

/-- The draw's own predicate on pixels is SpriteCovers (43_display.md R192 to R195). -/
theorem setsPixel_iff (s : State) (x0 y0 : Byte) (n r c : Nat) :
    setsPixel s.mem x0 y0 s.i.toNat n r c = true ↔ SpriteCovers s x0.toNat y0.toNat n r c := by
  simp only [setsPixel, setsColumn, List.any_eq_true, List.mem_range, Bool.and_eq_true, decide_eq_true_eq,
    spriteBit_eq]
  constructor
  · rintro ⟨j, hj, hr, b, hb, h1, h2⟩
    exact ⟨j, b, hj, hb, hr, h2, h1⟩
  · rintro ⟨j, b, hj, hb, hr, h2, h1⟩
    exact ⟨j, hj, hr, b, hb, h1, h2⟩

/-! ### Operand values (spec/30_encoding.md R94, 45_timers_index_memory.md R235) -/

/-- `zext_16` keeps the number. -/
@[simp] theorem zext16_toNat (nnn : BitVec 12) : (zext16 nnn).toNat = nnn.toNat := by
  have := nnn.isLt
  simp only [zext16, BitVec.toNat_setWidth]
  omega

/-- The glyph address as a number. -/
theorem glyphAddress_toNat (b : Byte) : (glyphAddress b).toNat = 0x050 + 5 * b.toNat := by
  have := b.isLt
  simp only [glyphAddress, Params.fx29Base, BitVec.toNat_ofNat]
  omega

/-! ### ALU results as numbers (42_alu.md R172) -/

/-- A flag byte is 0 or 1 (10_state.md R21). -/
theorem flagByte_toNat (b : Bool) : (flagByte b).toNat = if b then 1 else 0 := by
  cases b <;> rfl

theorem sumByte_toNat (a b : Byte) : (sumByte a b).toNat = (a.toNat + b.toNat) % 256 := by
  simp [sumByte]

theorem diffByte_toNat (a b : Byte) :
    (diffByte a b).toNat = if b.toNat ≤ a.toNat then a.toNat - b.toNat else a.toNat + 256 - b.toNat := by
  have := a.isLt
  have := b.isLt
  simp only [diffByte, BitVec.toNat_ofNat]
  split <;> omega

theorem shrByte_toNat (a : Byte) : (shrByte a).toNat = a.toNat / 2 := by
  have := a.isLt
  simp only [shrByte, BitVec.toNat_ofNat, Nat.shiftRight_eq_div_pow]
  omega

theorem shlByte_toNat (a : Byte) : (shlByte a).toNat = a.toNat * 2 % 256 := by
  simp [shlByte, Nat.shiftLeft_eq]

/-! ### The host's operations (40_operations.md R123, R126; 70_reset_and_hazards.md R340) -/

/-- One timer's step never wraps below zero. -/
theorem timerStep_toNat (b : Byte) : (timerStep b).toNat = b.toNat - 1 := by
  have := b.isLt
  simp only [timerStep]
  split
  · next h => simp [h]
  · next h =>
    have hb : b.toNat ≠ 0 := fun h0 => h (BitVec.eq_of_toNat_eq (by simpa using h0))
    rw [BitVec.toNat_sub]
    simp only [BitVec.toNat_ofNat]
    omega

/-- A ROM is too large past 3584 bytes. -/
theorem romTooLarge_iff (len : Nat) : romTooLarge len = true ↔ 4096 < len + 0x200 := by
  rw [romTooLarge, decide_eq_true_iff, memSize_eq, Config.progBase]

/-- A ROM that is too large changes nothing but the answer. -/
theorem State.loadROM_tooLarge {s : State} {bytes : List Byte} (h : romTooLarge bytes.length = true) :
    s.loadROM bytes = { s with events := .romTooLarge :: s.events } := by
  rw [State.loadROM, if_pos h]

/-- A ROM that fits is written from 0x200 up. -/
theorem State.loadROM_fits {s : State} {bytes : List Byte} (h : romTooLarge bytes.length = false) :
    s.loadROM bytes =
      { s with mem := Memory.writeBytes s.mem Config.progBase bytes, events := .romOk :: s.events } := by
  rw [State.loadROM, if_neg (by simp [h])]

/-- Reset puts every piece of the hardware's at its reset value and keeps the model's own fields. -/
theorem State.resetAll_hardware (s : State) {p : Piece} (h : p.isHardware = true) :
    p.Same State.reset s.resetAll := by
  cases p <;> first | exact absurd h (by decide) | exact rfl | exact fun _ => rfl | exact fun _ _ => rfl

end Sys2Proof.Machine
end

