-- ==== Sys2Proof/Laws/PerInstr.lean ====
section
/-! SUPPORT. Statements made per instruction (LAWS.json): EncodedRow, an instruction's word lies in its own row of R96's table (spec/30_encoding.md). -/

namespace Sys2Proof.Laws.EncodedRow

/-- `encode i & mask = match`, for the row of `i` (R96). -/
def Statement (i : Instr) : Prop := encode i &&& i.row.mask = i.row.pattern

/-- A 4-bit field under its full mask. -/
theorem and_full4 (f : BitVec 4) : f &&& 0xF#4 = f := BitVec.and_allOnes

/-- An 8-bit field under its full mask. -/
theorem and_full8 (b : Byte) : b &&& 0xFF#8 = b := BitVec.and_allOnes

/-- Format `FNNN` under mask 0xF000. -/
theorem wordNNN_masked (f : BitVec 4) (nnn : BitVec 12) : wordNNN f nnn &&& 0xF000#16 = f ++ 0#12 := by
  rw [show (0xF000#16 : Word) = 0xF#4 ++ 0#12 from rfl, wordNNN, BitVec.and_append, and_full4,
    BitVec.and_zero]

/-- Format `FXNN` under mask 0xF000. -/
theorem wordXNN_masked (f : BitVec 4) (x : RegIdx) (nn : Byte) : wordXNN f x nn &&& 0xF000#16 = f ++ 0#12 :=
  wordNNN_masked f (x ++ nn)

/-- Format `FX` under mask 0xF0FF. -/
theorem wordXNN_masked_low (f : BitVec 4) (x : RegIdx) (nn : Byte) :
    wordXNN f x nn &&& 0xF0FF#16 = f ++ (0#4 ++ nn : BitVec 12) := by
  rw [show (0xF0FF#16 : Word) = 0xF#4 ++ (0#4 ++ 0xFF#8 : BitVec 12) from rfl, wordXNN,
    BitVec.and_append, BitVec.and_append, and_full4, and_full8, BitVec.and_zero]

/-- Format `FXYN` under mask 0xF000. -/
theorem wordXYN_masked (f : BitVec 4) (x y : RegIdx) (n : BitVec 4) :
    wordXYN f x y n &&& 0xF000#16 = f ++ 0#12 := wordNNN_masked f (x ++ (y ++ n : BitVec 8))

/-- Format `FXY` under mask 0xF00F. -/
theorem wordXYN_masked_low (f : BitVec 4) (x y : RegIdx) (n : BitVec 4) :
    wordXYN f x y n &&& 0xF00F#16 = f ++ (0#4 ++ (0#4 ++ n : BitVec 8) : BitVec 12) := by
  rw [show (0xF00F#16 : Word) = 0xF#4 ++ (0#4 ++ (0#4 ++ 0xF#4 : BitVec 8) : BitVec 12) from rfl, wordXYN,
    BitVec.and_append, BitVec.and_append, BitVec.and_append, and_full4, and_full4, BitVec.and_zero,
    BitVec.and_zero]

theorem op00E0 : Statement .op00E0 := rfl
theorem op00EE : Statement .op00EE := rfl
theorem op1nnn (nnn : BitVec 12) : Statement (.op1nnn nnn) := (wordNNN_masked _ _).trans rfl
theorem op2nnn (nnn : BitVec 12) : Statement (.op2nnn nnn) := (wordNNN_masked _ _).trans rfl
theorem op3xnn (x : RegIdx) (nn : Byte) : Statement (.op3xnn x nn) := (wordXNN_masked _ _ _).trans rfl
theorem op4xnn (x : RegIdx) (nn : Byte) : Statement (.op4xnn x nn) := (wordXNN_masked _ _ _).trans rfl
theorem op6xnn (x : RegIdx) (nn : Byte) : Statement (.op6xnn x nn) := (wordXNN_masked _ _ _).trans rfl
theorem op7xnn (x : RegIdx) (nn : Byte) : Statement (.op7xnn x nn) := (wordXNN_masked _ _ _).trans rfl
theorem op8xy0 (x : RegIdx) (y : RegIdx) : Statement (.op8xy0 x y) := (wordXYN_masked_low _ _ _ _).trans rfl
theorem op8xy1 (x : RegIdx) (y : RegIdx) : Statement (.op8xy1 x y) := (wordXYN_masked_low _ _ _ _).trans rfl
theorem op8xy2 (x : RegIdx) (y : RegIdx) : Statement (.op8xy2 x y) := (wordXYN_masked_low _ _ _ _).trans rfl
theorem op8xy3 (x : RegIdx) (y : RegIdx) : Statement (.op8xy3 x y) := (wordXYN_masked_low _ _ _ _).trans rfl
theorem op8xy4 (x : RegIdx) (y : RegIdx) : Statement (.op8xy4 x y) := (wordXYN_masked_low _ _ _ _).trans rfl
theorem op8xy5 (x : RegIdx) (y : RegIdx) : Statement (.op8xy5 x y) := (wordXYN_masked_low _ _ _ _).trans rfl
theorem op8xy6 (x : RegIdx) (y : RegIdx) : Statement (.op8xy6 x y) := (wordXYN_masked_low _ _ _ _).trans rfl
theorem op8xy7 (x : RegIdx) (y : RegIdx) : Statement (.op8xy7 x y) := (wordXYN_masked_low _ _ _ _).trans rfl
theorem op8xyE (x : RegIdx) (y : RegIdx) : Statement (.op8xyE x y) := (wordXYN_masked_low _ _ _ _).trans rfl
theorem op9xy0 (x : RegIdx) (y : RegIdx) : Statement (.op9xy0 x y) := (wordXYN_masked_low _ _ _ _).trans rfl
theorem opAnnn (nnn : BitVec 12) : Statement (.opAnnn nnn) := (wordNNN_masked _ _).trans rfl
theorem opCxnn (x : RegIdx) (nn : Byte) : Statement (.opCxnn x nn) := (wordXNN_masked _ _ _).trans rfl
theorem opDxyn (x : RegIdx) (y : RegIdx) (n : BitVec 4) : Statement (.opDxyn x y n) := (wordXYN_masked _ _ _ _).trans rfl
theorem opEx9E (x : RegIdx) : Statement (.opEx9E x) := (wordXNN_masked_low _ _ _).trans rfl
theorem opExA1 (x : RegIdx) : Statement (.opExA1 x) := (wordXNN_masked_low _ _ _).trans rfl
theorem opFx07 (x : RegIdx) : Statement (.opFx07 x) := (wordXNN_masked_low _ _ _).trans rfl
theorem opFx0A (x : RegIdx) : Statement (.opFx0A x) := (wordXNN_masked_low _ _ _).trans rfl
theorem opFx15 (x : RegIdx) : Statement (.opFx15 x) := (wordXNN_masked_low _ _ _).trans rfl
theorem opFx18 (x : RegIdx) : Statement (.opFx18 x) := (wordXNN_masked_low _ _ _).trans rfl
theorem opFx1E (x : RegIdx) : Statement (.opFx1E x) := (wordXNN_masked_low _ _ _).trans rfl
theorem opFx29 (x : RegIdx) : Statement (.opFx29 x) := (wordXNN_masked_low _ _ _).trans rfl
theorem opFx33 (x : RegIdx) : Statement (.opFx33 x) := (wordXNN_masked_low _ _ _).trans rfl
theorem opFx55 (x : RegIdx) : Statement (.opFx55 x) := (wordXNN_masked_low _ _ _).trans rfl
theorem opFx65 (x : RegIdx) : Statement (.opFx65 x) := (wordXNN_masked_low _ _ _).trans rfl

end Sys2Proof.Laws.EncodedRow
end

