-- ==== Sys2Proof/Laws/Step.lean ====
section
/-! SUPPORT. What an instruction, a cycle and a step can do: the inversion lemmas that later proofs cite instead of unfolding. -/

namespace Sys2Proof.Machine

/-- What a completed instruction leaves as it was, whichever it is: the fault cause, the sticky bit, the
latch, the requests and the history. -/
structure KeepsStatus (s t : State) : Prop where
  fc : t.fc = s.fc
  unk : t.unk = s.unk
  keyCur : t.keyCur = s.keyCur
  keyPrev : t.keyPrev = s.keyPrev
  schedule : t.schedule = s.schedule
  events : t.events = s.events

/-- A next state by the one fault the instruction can raise, or by completing. -/
def Outcomes (i : Instr) (s : State) (r : Result) : Prop :=
  ∃ t, r = .next t ∧ ((∃ c, faultOf i = some c ∧ t = s.raise c) ∨ KeepsStatus s t)

/-- A result that completes. -/
theorem Outcomes.completes {i : Instr} {s t : State} (h : KeepsStatus s t) : Outcomes i s (.next t) :=
  ⟨t, rfl, .inr h⟩

/-- A result that is fault entry. -/
theorem Outcomes.faults {i : Instr} {s : State} {c : FaultCause} (h : faultOf i = some c) :
    Outcomes i s (.next (s.raise c)) := ⟨_, rfl, .inl ⟨c, h, rfl⟩⟩

/-! One lemma per meaning: it raises its one fault or completes. -/

theorem exec00E0_outcomes (s : State) :
    Outcomes .op00E0 s (exec00E0 s) := .completes ⟨rfl, rfl, rfl, rfl, rfl, rfl⟩

theorem exec00EE_outcomes (s : State) :
    Outcomes .op00EE s (exec00EE s) := by
  rw [exec00EE]
  split
  · exact .completes ⟨rfl, rfl, rfl, rfl, rfl, rfl⟩
  · exact .faults rfl

theorem exec1nnn_outcomes (nnn : BitVec 12) (s : State) :
    Outcomes (.op1nnn nnn) s (exec1nnn nnn s) := .completes ⟨rfl, rfl, rfl, rfl, rfl, rfl⟩

theorem exec2nnn_outcomes (nnn : BitVec 12) (s : State) :
    Outcomes (.op2nnn nnn) s (exec2nnn nnn s) := by
  rw [exec2nnn]
  split
  · exact .completes ⟨rfl, rfl, rfl, rfl, rfl, rfl⟩
  · exact .faults rfl

theorem exec3xnn_outcomes (x : RegIdx) (nn : Byte) (s : State) :
    Outcomes (.op3xnn x nn) s (exec3xnn x nn s) := .completes ⟨rfl, rfl, rfl, rfl, rfl, rfl⟩

theorem exec4xnn_outcomes (x : RegIdx) (nn : Byte) (s : State) :
    Outcomes (.op4xnn x nn) s (exec4xnn x nn s) := .completes ⟨rfl, rfl, rfl, rfl, rfl, rfl⟩

theorem exec6xnn_outcomes (x : RegIdx) (nn : Byte) (s : State) :
    Outcomes (.op6xnn x nn) s (exec6xnn x nn s) := .completes ⟨rfl, rfl, rfl, rfl, rfl, rfl⟩

theorem exec7xnn_outcomes (x : RegIdx) (nn : Byte) (s : State) :
    Outcomes (.op7xnn x nn) s (exec7xnn x nn s) := .completes ⟨rfl, rfl, rfl, rfl, rfl, rfl⟩

theorem exec8xy0_outcomes (x : RegIdx) (y : RegIdx) (s : State) :
    Outcomes (.op8xy0 x y) s (exec8xy0 x y s) := .completes ⟨rfl, rfl, rfl, rfl, rfl, rfl⟩

theorem exec8xy1_outcomes (x : RegIdx) (y : RegIdx) (s : State) :
    Outcomes (.op8xy1 x y) s (exec8xy1 x y s) := .completes ⟨rfl, rfl, rfl, rfl, rfl, rfl⟩

theorem exec8xy2_outcomes (x : RegIdx) (y : RegIdx) (s : State) :
    Outcomes (.op8xy2 x y) s (exec8xy2 x y s) := .completes ⟨rfl, rfl, rfl, rfl, rfl, rfl⟩

theorem exec8xy3_outcomes (x : RegIdx) (y : RegIdx) (s : State) :
    Outcomes (.op8xy3 x y) s (exec8xy3 x y s) := .completes ⟨rfl, rfl, rfl, rfl, rfl, rfl⟩

theorem exec8xy4_outcomes (x : RegIdx) (y : RegIdx) (s : State) :
    Outcomes (.op8xy4 x y) s (exec8xy4 x y s) := .completes ⟨rfl, rfl, rfl, rfl, rfl, rfl⟩

theorem exec8xy5_outcomes (x : RegIdx) (y : RegIdx) (s : State) :
    Outcomes (.op8xy5 x y) s (exec8xy5 x y s) := .completes ⟨rfl, rfl, rfl, rfl, rfl, rfl⟩

theorem exec8xy6_outcomes (x : RegIdx) (y : RegIdx) (s : State) :
    Outcomes (.op8xy6 x y) s (exec8xy6 x y s) := .completes ⟨rfl, rfl, rfl, rfl, rfl, rfl⟩

theorem exec8xy7_outcomes (x : RegIdx) (y : RegIdx) (s : State) :
    Outcomes (.op8xy7 x y) s (exec8xy7 x y s) := .completes ⟨rfl, rfl, rfl, rfl, rfl, rfl⟩

theorem exec8xyE_outcomes (x : RegIdx) (y : RegIdx) (s : State) :
    Outcomes (.op8xyE x y) s (exec8xyE x y s) := .completes ⟨rfl, rfl, rfl, rfl, rfl, rfl⟩

theorem exec9xy0_outcomes (x : RegIdx) (y : RegIdx) (s : State) :
    Outcomes (.op9xy0 x y) s (exec9xy0 x y s) := .completes ⟨rfl, rfl, rfl, rfl, rfl, rfl⟩

theorem execAnnn_outcomes (nnn : BitVec 12) (s : State) :
    Outcomes (.opAnnn nnn) s (execAnnn nnn s) := .completes ⟨rfl, rfl, rfl, rfl, rfl, rfl⟩

theorem execCxnn_outcomes (x : RegIdx) (nn : Byte) (s : State) :
    Outcomes (.opCxnn x nn) s (execCxnn x nn s) := .completes ⟨rfl, rfl, rfl, rfl, rfl, rfl⟩

theorem execDxyn_outcomes (x : RegIdx) (y : RegIdx) (n : BitVec 4) (s : State) :
    Outcomes (.opDxyn x y n) s (execDxyn x y n s) := by
  rw [execDxyn]
  split
  · exact .faults rfl
  · exact .completes ⟨rfl, rfl, rfl, rfl, rfl, rfl⟩

theorem execEx9E_outcomes (x : RegIdx) (s : State) :
    Outcomes (.opEx9E x) s (execEx9E x s) := .completes ⟨rfl, rfl, rfl, rfl, rfl, rfl⟩

theorem execExA1_outcomes (x : RegIdx) (s : State) :
    Outcomes (.opExA1 x) s (execExA1 x s) := .completes ⟨rfl, rfl, rfl, rfl, rfl, rfl⟩

theorem execFx07_outcomes (x : RegIdx) (s : State) :
    Outcomes (.opFx07 x) s (execFx07 x s) := .completes ⟨rfl, rfl, rfl, rfl, rfl, rfl⟩

theorem execFx0A_outcomes (x : RegIdx) (s : State) :
    Outcomes (.opFx0A x) s (execFx0A x s) := by
  rw [execFx0A]
  split
  · exact .completes ⟨rfl, rfl, rfl, rfl, rfl, rfl⟩
  · exact .completes ⟨rfl, rfl, rfl, rfl, rfl, rfl⟩

theorem execFx15_outcomes (x : RegIdx) (s : State) :
    Outcomes (.opFx15 x) s (execFx15 x s) := .completes ⟨rfl, rfl, rfl, rfl, rfl, rfl⟩

theorem execFx18_outcomes (x : RegIdx) (s : State) :
    Outcomes (.opFx18 x) s (execFx18 x s) := .completes ⟨rfl, rfl, rfl, rfl, rfl, rfl⟩

theorem execFx1E_outcomes (x : RegIdx) (s : State) :
    Outcomes (.opFx1E x) s (execFx1E x s) := by
  rw [execFx1E]
  split
  · exact .faults rfl
  · exact .completes ⟨rfl, rfl, rfl, rfl, rfl, rfl⟩

theorem execFx29_outcomes (x : RegIdx) (s : State) :
    Outcomes (.opFx29 x) s (execFx29 x s) := .completes ⟨rfl, rfl, rfl, rfl, rfl, rfl⟩

theorem execFx33_outcomes (x : RegIdx) (s : State) :
    Outcomes (.opFx33 x) s (execFx33 x s) := by
  rw [execFx33]
  split
  · exact .faults rfl
  · exact .completes ⟨rfl, rfl, rfl, rfl, rfl, rfl⟩

theorem execFx55_outcomes (x : RegIdx) (s : State) :
    Outcomes (.opFx55 x) s (execFx55 x s) := by
  rw [execFx55]
  split
  · exact .faults rfl
  · exact .completes ⟨rfl, rfl, rfl, rfl, rfl, rfl⟩

theorem execFx65_outcomes (x : RegIdx) (s : State) :
    Outcomes (.opFx65 x) s (execFx65 x s) := by
  rw [execFx65]
  split
  · exact .faults rfl
  · exact .completes (by constructor <;> simp)

/-- Every instruction answers a next state, by fault entry or by completing (60_exceptions.md R311). -/
theorem exec_outcomes (i : Instr) (s : State) : Outcomes i s (exec i s) :=
  match i with
  | .op00E0 => exec00E0_outcomes s
  | .op00EE => exec00EE_outcomes s
  | .op1nnn nnn => exec1nnn_outcomes nnn s
  | .op2nnn nnn => exec2nnn_outcomes nnn s
  | .op3xnn x nn => exec3xnn_outcomes x nn s
  | .op4xnn x nn => exec4xnn_outcomes x nn s
  | .op6xnn x nn => exec6xnn_outcomes x nn s
  | .op7xnn x nn => exec7xnn_outcomes x nn s
  | .op8xy0 x y => exec8xy0_outcomes x y s
  | .op8xy1 x y => exec8xy1_outcomes x y s
  | .op8xy2 x y => exec8xy2_outcomes x y s
  | .op8xy3 x y => exec8xy3_outcomes x y s
  | .op8xy4 x y => exec8xy4_outcomes x y s
  | .op8xy5 x y => exec8xy5_outcomes x y s
  | .op8xy6 x y => exec8xy6_outcomes x y s
  | .op8xy7 x y => exec8xy7_outcomes x y s
  | .op8xyE x y => exec8xyE_outcomes x y s
  | .op9xy0 x y => exec9xy0_outcomes x y s
  | .opAnnn nnn => execAnnn_outcomes nnn s
  | .opCxnn x nn => execCxnn_outcomes x nn s
  | .opDxyn x y n => execDxyn_outcomes x y n s
  | .opEx9E x => execEx9E_outcomes x s
  | .opExA1 x => execExA1_outcomes x s
  | .opFx07 x => execFx07_outcomes x s
  | .opFx0A x => execFx0A_outcomes x s
  | .opFx15 x => execFx15_outcomes x s
  | .opFx18 x => execFx18_outcomes x s
  | .opFx1E x => execFx1E_outcomes x s
  | .opFx29 x => execFx29_outcomes x s
  | .opFx33 x => execFx33_outcomes x s
  | .opFx55 x => execFx55_outcomes x s
  | .opFx65 x => execFx65_outcomes x s

/-! The meanings that branch: by fault entry, or by completing, with what each branch requires. -/

/-- `00EE` (41_control_flow.md R140). -/
theorem exec00EE_cases {s t : State} (h : exec00EE s = .next t) :
    (s.sp.val = 0 ∧ t = s.raise .stackUnderflow) ∨ ∃ hs : 0 < s.sp.val, t = (s.pop hs).jumpTo (s.top hs) := by
  rw [exec00EE] at h
  split at h
  · next hs => exact .inr ⟨hs, (Host.Outcome.next.inj h).symm⟩
  · next hs => exact .inl ⟨by omega, (Host.Outcome.next.inj h).symm⟩

/-- `2nnn` (R142). -/
theorem exec2nnn_cases {nnn : BitVec 12} {s t : State} (h : exec2nnn nnn s = .next t) :
    (s.sp.val = 16 ∧ t = s.raise .stackOverflow) ∨
      ∃ hs : s.sp.val < 16, t = (s.push (s.pc + 2#16) hs).jumpTo (zext16 nnn) := by
  rw [exec2nnn] at h
  split at h
  · next hs => exact .inr ⟨hs, (Host.Outcome.next.inj h).symm⟩
  · next hs => exact .inl ⟨by omega, (Host.Outcome.next.inj h).symm⟩

/-- `Dxyn` (43_display.md R192). -/
theorem execDxyn_cases {x y : RegIdx} {n : BitVec 4} {s t : State} (h : execDxyn x y n s = .next t) :
    (rangePassesEnd s.i.toNat n.toNat = true ∧ t = s.raise .dataOutOfRange) ∨
      (rangePassesEnd s.i.toNat n.toNat = false ∧
        t = ((s.setV regF (flagByte (drawSprite s.mem (s.getV x) (s.getV y) s.i.toNat n.toNat s.fb).hit)).drawn
          (drawSprite s.mem (s.getV x) (s.getV y) s.i.toNat n.toNat s.fb).fb).advance) := by
  rw [execDxyn] at h
  split at h
  · next hr => exact .inl ⟨hr, (Host.Outcome.next.inj h).symm⟩
  · next hr => exact .inr ⟨by simpa using hr, (Host.Outcome.next.inj h).symm⟩

/-- `Fx0A` (44_keypad.md R213). -/
theorem execFx0A_cases {x : RegIdx} {s t : State} (h : execFx0A x s = .next t) :
    ((∀ k, k < 16 → ¬risesAt s k) ∧ t = s.waitHere) ∨
      ∃ k, k < 16 ∧ risesAt s k ∧ (∀ j, j < k → ¬risesAt s j) ∧ t = (s.setV x (BitVec.ofNat 8 k)).advance := by
  rw [execFx0A] at h
  split at h
  · next hl =>
    refine .inl ⟨fun k hk => ?_, (Host.Outcome.next.inj h).symm⟩
    rw [← State.rising_getLsbD s hk, (leastKey_none_iff _).1 hl k hk]
    decide
  · next k hl =>
    obtain ⟨hk, hb, hmin⟩ := leastKey_some hl
    refine .inr ⟨k, hk, (State.rising_getLsbD s hk).1 hb, fun j hj => ?_, (Host.Outcome.next.inj h).symm⟩
    rw [← State.rising_getLsbD s (by omega), hmin j hj]
    decide

/-- `Fx1E` (45_timers_index_memory.md R234). -/
theorem execFx1E_cases {x : RegIdx} {s t : State} (h : execFx1E x s = .next t) :
    (0xFFF < s.i.toNat + (s.getV x).toNat ∧ t = s.raise .indexOutOfRange) ∨
      (s.i.toNat + (s.getV x).toNat ≤ 0xFFF ∧
        t = (s.setI (BitVec.ofNat 16 (s.i.toNat + (s.getV x).toNat))).advance) := by
  have := memSize_eq
  rw [execFx1E] at h
  split at h
  · exact .inl ⟨by omega, (Host.Outcome.next.inj h).symm⟩
  · exact .inr ⟨by omega, (Host.Outcome.next.inj h).symm⟩

/-- `Fx33` (45_timers_index_memory.md R236). -/
theorem execFx33_cases {x : RegIdx} {s t : State} (h : execFx33 x s = .next t) :
    (0xFFF < s.i.toNat + 2 ∧ t = s.raise .dataOutOfRange) ∨
      (s.i.toNat + 2 ≤ 0xFFF ∧
        t = (s.setMem (Memory.writeBytes s.mem s.i.toNat (decimalDigits (s.getV x)))).advance) := by
  rw [execFx33] at h
  split at h
  · next hr =>
    rw [rangePassesEnd_iff] at hr
    exact .inl ⟨by omega, (Host.Outcome.next.inj h).symm⟩
  · next hr =>
    rw [rangePassesEnd_iff] at hr
    exact .inr ⟨by omega, (Host.Outcome.next.inj h).symm⟩

/-- `Fx55` (45_timers_index_memory.md R237). -/
theorem execFx55_cases {x : RegIdx} {s t : State} (h : execFx55 x s = .next t) :
    (0xFFF < s.i.toNat + x.toNat ∧ t = s.raise .dataOutOfRange) ∨
      (s.i.toNat + x.toNat ≤ 0xFFF ∧
        t = (s.setMem (Memory.writeBytes s.mem s.i.toNat (s.bytesV x))).advance) := by
  rw [execFx55] at h
  split at h
  · next hr =>
    rw [rangePassesEnd_iff] at hr
    exact .inl ⟨by omega, (Host.Outcome.next.inj h).symm⟩
  · next hr =>
    rw [rangePassesEnd_iff] at hr
    exact .inr ⟨by omega, (Host.Outcome.next.inj h).symm⟩

/-- `Fx65` (45_timers_index_memory.md R238). -/
theorem execFx65_cases {x : RegIdx} {s t : State} (h : execFx65 x s = .next t) :
    (0xFFF < s.i.toNat + x.toNat ∧ t = s.raise .dataOutOfRange) ∨
      (s.i.toNat + x.toNat ≤ 0xFFF ∧ t = (s.loadV x s.i.toNat).advance) := by
  rw [execFx65] at h
  split at h
  · next hr =>
    rw [rangePassesEnd_iff] at hr
    exact .inl ⟨by omega, (Host.Outcome.next.inj h).symm⟩
  · next hr =>
    rw [rangePassesEnd_iff] at hr
    exact .inr ⟨by omega, (Host.Outcome.next.inj h).symm⟩

/-- No instruction ends in a stop. -/
theorem exec_total (i : Instr) (s : State) : ∃ t, exec i s = .next t :=
  let ⟨t, h, _⟩ := exec_outcomes i s
  ⟨t, h⟩

/-- An instruction raises the one fault it can (60_exceptions.md R311), or completes and leaves the status
pieces as they were. -/
theorem exec_cases {i : Instr} {s t : State} (h : exec i s = .next t) :
    (∃ c, faultOf i = some c ∧ t = s.raise c) ∨ KeepsStatus s t := by
  obtain ⟨u, hu, hc⟩ := exec_outcomes i s
  obtain rfl : u = t := Host.Outcome.next.inj (hu.symm.trans h)
  exact hc

/-- What one `RunCycle` can do, in the order of 60_exceptions.md R311. -/
theorem runCycle_cases {s t : State} (h : runCycle s = .next t) :
    (s.fc ≠ .noFault ∧ t = s) ∨
    (s.fc = .noFault ∧ s.fetch = none ∧ t = s.raise .fetchOutOfRange) ∨
    (∃ op e, s.fc = .noFault ∧ s.fetch = some op ∧ decode op = .error e ∧ t = s.reportUnknown op) ∨
    (∃ op i, s.fc = .noFault ∧ s.fetch = some op ∧ decode op = .ok i ∧ exec i s = .next t) := by
  rw [runCycle] at h
  split at h
  · next hf => exact .inl ⟨hf, by cases h; rfl⟩
  · next hf =>
    have hf : s.fc = .noFault := Decidable.not_not.mp hf
    split at h
    · next hn => exact .inr (.inl ⟨hf, hn, by cases h; rfl⟩)
    · next op hop =>
      rw [runOpcode] at h
      split at h
      · next i hi => exact .inr (.inr (.inr ⟨op, i, hf, hop, hi, h⟩))
      · next e he => exact .inr (.inr (.inl ⟨op, e, hf, hop, he, by cases h; rfl⟩))

/-- A cycle that is not halted and fetches an instruction runs it. -/
theorem runCycle_exec {s : State} {op : Word} {i : Instr} (hf : s.fc = .noFault) (ho : s.fetch = some op)
    (hi : decode op = .ok i) : runCycle s = exec i s := by
  simp [runCycle, hf, ho, runOpcode, hi]

/-- A cycle that fetches an unrecognised word reports it. -/
theorem runCycle_unknown {s : State} {op : Word} {e : Unrecognised} (hf : s.fc = .noFault)
    (ho : s.fetch = some op) (he : decode op = .error e) : runCycle s = .next (s.reportUnknown op) := by
  simp [runCycle, hf, ho, runOpcode, he]

/-- A step with nothing requested is a `RunCycle`. -/
theorem step_idle {s : State} (h : s.schedule = []) : step s = runCycle s := by
  simp [step, nextOperation, h]

/-- A step performs the oldest request. -/
theorem step_request {s : State} {op : HostOp} {rest : List HostOp} (h : s.schedule = op :: rest) :
    step s = performOp op (s.setSchedule rest) := by
  simp [step, nextOperation, h]

/-- A step that is a cycle, requested or not. -/
theorem step_cycleRunsFrom {s s' : State} (h : CycleRunsFrom s s') : step s = runCycle s' := by
  rcases h with ⟨hs, rfl⟩ | ⟨rest, hs, rfl⟩
  · exact step_idle hs
  · exact step_request hs

/-- The state a cycle runs at is the state of the step but for the requests. -/
theorem CycleRunsFrom.eq_setSchedule {s s' : State} (h : CycleRunsFrom s s') :
    ∃ rest, s' = s.setSchedule rest := by
  rcases h with ⟨-, rfl⟩ | ⟨rest, -, rfl⟩
  · exact ⟨s'.schedule, rfl⟩
  · exact ⟨rest, rfl⟩

/-- Every cycle answers a next state. -/
theorem runCycle_total (s : State) : ∃ t, runCycle s = .next t := by
  rw [runCycle]
  split
  · exact ⟨_, rfl⟩
  · split
    · exact ⟨_, rfl⟩
    · rw [runOpcode]
      split
      · exact exec_total _ _
      · exact ⟨_, rfl⟩

/-- What one step can do. -/
theorem step_cases {s t : State} (h : step s = .next t) :
    (s.schedule = [] ∧ runCycle s = .next t) ∨
    (∃ op rest, s.schedule = op :: rest ∧ performOp op (s.setSchedule rest) = .next t) := by
  rw [step, nextOperation] at h
  split at h
  · next hs => exact .inl ⟨hs, h⟩
  · next op rest hs => exact .inr ⟨op, rest, hs, h⟩

/-- A word placed for the very next step is fetched by it (log 3). -/
theorem placeOpcode_fetch {s : State} (h : Memory.wf s.mem = true) (op : Word) :
    (s.placeOpcode op).fetch = some op := by
  have hp : s.fetchPlace.toNat + 1 ≤ 0xFFF := by
    have := memSize_eq
    rw [State.fetchPlace]
    split
    · decide
    · omega
  have hw : ∀ c, Memory.read (s.placeOpcode op).mem c =
      if hc : s.fetchPlace.toNat ≤ c ∧ c < s.fetchPlace.toNat + 2 then
        [opcodeHigh op, opcodeLow op][c - s.fetchPlace.toNat]'(by simp; omega)
      else Memory.read s.mem c :=
    Memory.read_writeBytes h _ _ (by have := memSize_eq; simp; omega)
  rw [State.fetch_eq (by simpa using hp), hw, hw]
  simp

/-- The instruction the decoder reads from a placed word is the one the very next step runs (log 3). -/
theorem step_withFetchWord {s : State} (h : Memory.wf s.mem = true) {nbits w : Nat} {i : Instr}
    (hd : decodeTableWord nbits w = some i) :
    step (s.withFetchWord nbits w) = exec i (s.withFetchWord nbits w) := by
  have hi : decode (tableWord nbits w) = .ok i := by
    rw [decodeTableWord, decodeBytes, assembleOpcode_bytes] at hd
    cases hc : decode (tableWord nbits w) <;> simp_all
  exact (step_idle rfl).trans (runCycle_exec rfl (placeOpcode_fetch h _) hi)

end Sys2Proof.Machine
end

