-- ==== Sys2Proof/Tests/Slice0.lean ====
section
/-! SUPPORT. The model's own tests. Expected values are those of spec/95_test_vectors.md, whose vector ids the comments name, or are worked out from the rules named. -/

namespace Sys2Proof.Tests

open Sys2Proof Sys2Proof.Machine

/-! ### Well-formedness: each field one past its width is refused (30_encoding.md R92) -/

theorem test_x_too_wide_refused : operandsFit [(.x, 16), (.y, 0)] = false := by decide
theorem test_y_too_wide_refused : operandsFit [(.x, 0), (.y, 16)] = false := by decide
theorem test_n_too_wide_refused : operandsFit [(.x, 0), (.y, 0), (.n, 16)] = false := by decide
theorem test_nn_too_wide_refused : operandsFit [(.x, 0), (.nn, 256)] = false := by decide
theorem test_nnn_too_wide_refused : operandsFit [(.nnn, 4096)] = false := by decide
theorem test_widest_operands_fit :
    operandsFit [(.x, 15), (.y, 15), (.n, 15), (.nn, 255), (.nnn, 4095)] = true := by decide

/-! ### Decoding: one word per instruction, its digits written out from its pattern (R93, R96) -/

theorem test_decode_00E0 : decode 0x00E0#16 = .ok .op00E0 := by decide
theorem test_decode_00EE : decode 0x00EE#16 = .ok .op00EE := by decide
theorem test_decode_1nnn : decode 0x1ABC#16 = .ok (.op1nnn 0xABC#12) := by decide
theorem test_decode_2nnn : decode 0x2301#16 = .ok (.op2nnn 0x301#12) := by decide
theorem test_decode_3xnn : decode 0x3A42#16 = .ok (.op3xnn 0xA#4 0x42#8) := by decide
theorem test_decode_4xnn : decode 0x4B81#16 = .ok (.op4xnn 0xB#4 0x81#8) := by decide
theorem test_decode_6xnn : decode 0x6C2F#16 = .ok (.op6xnn 0xC#4 0x2F#8) := by decide
theorem test_decode_7xnn : decode 0x7D13#16 = .ok (.op7xnn 0xD#4 0x13#8) := by decide
theorem test_decode_8xy0 : decode 0x8120#16 = .ok (.op8xy0 0x1#4 0x2#4) := by decide
theorem test_decode_8xy1 : decode 0x8341#16 = .ok (.op8xy1 0x3#4 0x4#4) := by decide
theorem test_decode_8xy2 : decode 0x8562#16 = .ok (.op8xy2 0x5#4 0x6#4) := by decide
theorem test_decode_8xy3 : decode 0x8783#16 = .ok (.op8xy3 0x7#4 0x8#4) := by decide
theorem test_decode_8xy4 : decode 0x89A4#16 = .ok (.op8xy4 0x9#4 0xA#4) := by decide
theorem test_decode_8xy5 : decode 0x8BC5#16 = .ok (.op8xy5 0xB#4 0xC#4) := by decide
theorem test_decode_8xy6 : decode 0x8DE6#16 = .ok (.op8xy6 0xD#4 0xE#4) := by decide
theorem test_decode_8xy7 : decode 0x8F07#16 = .ok (.op8xy7 0xF#4 0x0#4) := by decide
theorem test_decode_8xyE : decode 0x812E#16 = .ok (.op8xyE 0x1#4 0x2#4) := by decide
theorem test_decode_9xy0 : decode 0x9340#16 = .ok (.op9xy0 0x3#4 0x4#4) := by decide
theorem test_decode_Annn : decode 0xA123#16 = .ok (.opAnnn 0x123#12) := by decide
theorem test_decode_Cxnn : decode 0xC40F#16 = .ok (.opCxnn 0x4#4 0x0F#8) := by decide
theorem test_decode_Dxyn : decode 0xD125#16 = .ok (.opDxyn 0x1#4 0x2#4 0x5#4) := by decide
theorem test_decode_Ex9E : decode 0xE69E#16 = .ok (.opEx9E 0x6#4) := by decide
theorem test_decode_ExA1 : decode 0xE7A1#16 = .ok (.opExA1 0x7#4) := by decide
theorem test_decode_Fx07 : decode 0xF807#16 = .ok (.opFx07 0x8#4) := by decide
theorem test_decode_Fx0A : decode 0xF90A#16 = .ok (.opFx0A 0x9#4) := by decide
theorem test_decode_Fx15 : decode 0xFA15#16 = .ok (.opFx15 0xA#4) := by decide
theorem test_decode_Fx18 : decode 0xFB18#16 = .ok (.opFx18 0xB#4) := by decide
theorem test_decode_Fx1E : decode 0xFC1E#16 = .ok (.opFx1E 0xC#4) := by decide
theorem test_decode_Fx29 : decode 0xFD29#16 = .ok (.opFx29 0xD#4) := by decide
theorem test_decode_Fx33 : decode 0xFE33#16 = .ok (.opFx33 0xE#4) := by decide
theorem test_decode_Fx55 : decode 0xFF55#16 = .ok (.opFx55 0xF#4) := by decide
theorem test_decode_Fx65 : decode 0xF065#16 = .ok (.opFx65 0x0#4) := by decide

/-- The words of 95_test_vectors.md section 2.6, each under its row of R97's table. -/
theorem test_unrecognised_words :
    ([0x0000#16, 0x0123#16, 0x00E1#16, 0x00FE#16, 0x0FFF#16].all fun op => decode op = .error .family0) ∧
    ([0x5120#16, 0x5AB7#16].all fun op => decode op = .error .family5) ∧
    decode 0xB300#16 = .error .familyB ∧
    ([0x8008#16, 0x800F#16].all fun op => decode op = .error .family8) ∧
    decode 0x9001#16 = .error .family9 ∧
    ([0xE09F#16, 0xE000#16].all fun op => decode op = .error .familyE) ∧
    ([0xF000#16, 0xF01F#16, 0xF075#16, 0xF085#16, 0xF1FF#16].all fun op => decode op = .error .familyF) := by
  decide

/-- The byte at the lower address is the high one (R91), two bytes are consumed (R90). -/
theorem test_decode_bytes :
    decodeBytes [0x6A#8, 0x2F#8, 0x77#8] = .ok (.op6xnn 0xA#4 0x2F#8, [0x77#8]) ∧
    decodeBytes [0x6A#8] = .error .truncated ∧ decodeBytes [] = .error .truncated := by decide

theorem test_encode_bytes : encodeBytes (.opDxyn 0x1#4 0x2#4 0x5#4) = [0xD1#8, 0x25#8] := by decide

theorem test_table_word :
    decodeTableWord 16 0x8124 = some (.op8xy4 0x1#4 0x2#4) ∧ decodeTableWord 16 0x5120 = none := by decide

/-! ### The states of the tests -/

/-- Reset with the word at 0x200 (95_test_vectors.md, conventions). -/
def start (op : Word) : State := State.reset.placeOpcode op

/-- Reset with the word at `pc`. -/
def startAt (pc : Word) (op : Word) : State := { State.reset with pc := pc }.placeOpcode op

/-- Registers set. -/
def regs (rs : List (RegIdx × Byte)) (s : State) : State := rs.foldl (fun s r => s.setV r.1 r.2) s

/-- Memory bytes set from an address up. -/
def bytes (a : Nat) (bs : List Byte) (s : State) : State := s.setMem (Memory.writeBytes s.mem a bs)

/-- Whether the answer is a next state with a property. -/
def ends (r : Result) (p : State → Bool) : Bool :=
  match r with
  | .next t => p t
  | .fault f => nomatch f
  | .refused _ => false

/-- The lit pixels, row by row. -/
def lit (s : State) : List (Nat × Nat) :=
  (List.range 32).flatMap fun r => ((List.range 64).filter fun c => pixel s.fb r c).map fun c => (r, c)

/-! ### Control transfer -/

/-- T1. -/
theorem test_jump : ends (step (start 0x1ABC#16)) (fun t => t.pc = 0x0ABC#16) := by decide

/-- T5: the largest return address, the last free slot. -/
theorem test_call_last_slot :
    ends (step { startAt 0x0FFE#16 0x2300#16 with sp := 15 }) (fun t =>
      t.stack[15] = 0x1000#16 && t.sp = 16 && t.pc = 0x0300#16) := by decide

/-- T6. -/
theorem test_call_overflow :
    ends (step { start 0x2300#16 with sp := 16 }) (fun t =>
      t.fc = .stackOverflow && t.pc = 0x0200#16 && t.sp = 16 &&
        t.events = [.fault .stackOverflow 0x0200#16]) := by decide

/-- T7: a return adds nothing. -/
theorem test_return :
    ends (step { startAt 0x030A#16 0x00EE#16 with sp := 1, stack := State.reset.stack.set 0 0x0206#16 })
      (fun t => t.sp = 0 && t.pc = 0x0206#16 && t.stack[0] = 0x0206#16) := by decide

/-- T8. -/
theorem test_return_underflow :
    ends (step (start 0x00EE#16)) (fun t => t.fc = .stackUnderflow && t.pc = 0x0200#16) := by decide

/-- T10, T11. -/
theorem test_skip_equal_immediate :
    ends (step (regs [(0xA, 0x42)] (start 0x3A42#16))) (fun t => t.pc = 0x0204#16) &&
      ends (step (regs [(0xA, 0x43)] (start 0x3A42#16))) (fun t => t.pc = 0x0202#16) := by decide

/-- T12, T13. -/
theorem test_skip_unequal_immediate :
    ends (step (regs [(0xA, 0x42)] (start 0x4A42#16))) (fun t => t.pc = 0x0202#16) &&
      ends (step (regs [(0xA, 0x43)] (start 0x4A42#16))) (fun t => t.pc = 0x0204#16) := by decide

/-- T14, T15. -/
theorem test_skip_unequal_registers :
    ends (step (regs [(1, 5), (2, 5)] (start 0x9120#16))) (fun t => t.pc = 0x0202#16) &&
      ends (step (regs [(1, 5), (2, 6)] (start 0x9120#16))) (fun t => t.pc = 0x0204#16) := by decide

/-- T17: a skip over the last word leaves memory. -/
theorem test_skip_past_end :
    ends (step (startAt 0x0FFC#16 0x3000#16)) (fun t => t.pc = 0x1000#16 && t.fc = .noFault) := by decide

/-- T19, T20: fetch at 0xFFF and 0x1000. -/
theorem test_fetch_fault :
    ends (step { State.reset with pc := 0x0FFF#16 }) (fun t => t.fc = .fetchOutOfRange && t.pc = 0x0FFF#16) &&
      ends (step { State.reset with pc := 0x1000#16 }) (fun t => t.fc = .fetchOutOfRange && t.pc = 0x1000#16) := by
  decide

/-- T21: an odd `PC` executes. -/
theorem test_odd_pc :
    ends (step (startAt 0x0201#16 0x6A55#16)) (fun t => t.getV 0xA#4 = 0x55#8 && t.pc = 0x0203#16) := by decide

/-- T22: a halted core. -/
theorem test_halted :
    step { start 0x6A55#16 with fc := .stackOverflow } = .next { start 0x6A55#16 with fc := .stackOverflow } := rfl

/-! ### Register load, arithmetic, logic, shift, random -/

/-- A1: `VF` is an ordinary destination of `6xnn`. -/
theorem test_load_immediate :
    ends (step (start 0x6F12#16)) (fun t => t.getV 0xF#4 = 0x12#8 && t.pc = 0x0202#16) := by decide

/-- A2, A3: the sum wraps; `VF` is no carry. -/
theorem test_add_immediate_wraps :
    ends (step (regs [(3, 0xFF), (0xF, 0x77)] (start 0x7301#16))) (fun t =>
        t.getV 3#4 = 0x00#8 && t.getV 0xF#4 = 0x77#8) &&
      ends (step (regs [(0xF, 0xFF)] (start 0x7F01#16))) (fun t => t.getV 0xF#4 = 0x00#8) := by decide

/-- A4. -/
theorem test_assign :
    ends (step (regs [(1, 0x11), (2, 0x22)] (start 0x8120#16))) (fun t =>
      t.getV 1#4 = 0x22#8 && t.getV 2#4 = 0x22#8) := by decide

/-- A5. -/
theorem test_or :
    ends (step (regs [(1, 0xF0), (2, 0x0F), (0xF, 0x5A)] (start 0x8121#16))) (fun t =>
      t.getV 1#4 = 0xFF#8 && t.getV 0xF#4 = 0x5A#8) := by decide

/-- A6. -/
theorem test_and :
    ends (step (regs [(1, 0xF0), (2, 0x3C), (0xF, 0x5A)] (start 0x8122#16))) (fun t =>
      t.getV 1#4 = 0x30#8 && t.getV 0xF#4 = 0x5A#8) := by decide

/-- A7. -/
theorem test_xor :
    ends (step (regs [(1, 0xF0), (2, 0x3C), (0xF, 0x5A)] (start 0x8123#16))) (fun t =>
      t.getV 1#4 = 0xCC#8 && t.getV 0xF#4 = 0x5A#8) := by decide

/-- A9, A10: carry from 256 on. -/
theorem test_add_carry :
    ends (step (regs [(1, 0xF0), (2, 0x0F)] (start 0x8124#16))) (fun t =>
        t.getV 1#4 = 0xFF#8 && t.getV 0xF#4 = 0x00#8) &&
      ends (step (regs [(1, 0xF0), (2, 0x10)] (start 0x8124#16))) (fun t =>
        t.getV 1#4 = 0x00#8 && t.getV 0xF#4 = 0x01#8) := by decide

/-- A13, A15: `x = F` keeps the flag; `y = F` is read before the flag. -/
theorem test_add_flag_register :
    ends (step (regs [(0xF, 0xFF), (1, 0x03)] (start 0x8F14#16))) (fun t => t.getV 0xF#4 = 0x01#8) &&
      ends (step (regs [(1, 0xFF), (0xF, 0x01)] (start 0x81F4#16))) (fun t =>
        t.getV 1#4 = 0x00#8 && t.getV 0xF#4 = 0x01#8) := by decide

/-- A18, A19: borrow; equal operands. -/
theorem test_sub_borrow :
    ends (step (regs [(1, 0x01), (2, 0x10), (0xF, 1)] (start 0x8125#16))) (fun t =>
        t.getV 1#4 = 0xF1#8 && t.getV 0xF#4 = 0x00#8) &&
      ends (step (regs [(1, 0x33), (2, 0x33)] (start 0x8125#16))) (fun t =>
        t.getV 1#4 = 0x00#8 && t.getV 0xF#4 = 0x01#8) := by decide

/-- A21, A22: `x = F`; `y = F`. -/
theorem test_sub_flag_register :
    ends (step (regs [(0xF, 0x05), (1, 0x06)] (start 0x8F15#16))) (fun t => t.getV 0xF#4 = 0x00#8) &&
      ends (step (regs [(1, 0x05), (0xF, 0x02)] (start 0x81F5#16))) (fun t =>
        t.getV 1#4 = 0x03#8 && t.getV 0xF#4 = 0x01#8) := by decide

/-- A23, A24. -/
theorem test_sub_reverse :
    ends (step (regs [(1, 0x01), (2, 0x10)] (start 0x8127#16))) (fun t =>
        t.getV 1#4 = 0x0F#8 && t.getV 0xF#4 = 0x01#8) &&
      ends (step (regs [(1, 0x10), (2, 0x01), (0xF, 1)] (start 0x8127#16))) (fun t =>
        t.getV 1#4 = 0xF1#8 && t.getV 0xF#4 = 0x00#8) := by decide

/-- A26, A28: `y` ignored; with `x = F` the dropped bit wins. -/
theorem test_shift_right :
    ends (step (regs [(1, 0x05), (2, 0xFF)] (start 0x8126#16))) (fun t =>
        t.getV 1#4 = 0x02#8 && t.getV 0xF#4 = 0x01#8) &&
      ends (step (regs [(0xF, 0x02)] (start 0x8F06#16))) (fun t => t.getV 0xF#4 = 0x00#8) := by decide

/-- A30, A31. -/
theorem test_shift_left :
    ends (step (regs [(1, 0x81)] (start 0x812E#16))) (fun t =>
        t.getV 1#4 = 0x02#8 && t.getV 0xF#4 = 0x01#8) &&
      ends (step (regs [(1, 0x40), (2, 0xFF), (0xF, 1)] (start 0x812E#16))) (fun t =>
        t.getV 1#4 = 0x80#8 && t.getV 0xF#4 = 0x00#8) := by decide

/-- The `Cxnn` table: under mask 0xFF the drawn byte itself, whatever it is; one value is drawn. -/
theorem test_random_full_mask :
    ∃ t, step (start 0xC4FF#16) = .next t ∧ t.getV 4#4 = Config.rnd 0 &&& 0xFF#8 ∧ t.rndCount = 1 :=
  ⟨_, rfl, rfl, rfl⟩

/-! ### Display -/

/-- DR1. -/
theorem test_clear_screen :
    ends (step (start 0x00E0#16 |>.drawn (flipPixel (flipPixel State.reset.fb 0 0) 31 63) |>.drawAck))
      (fun t => lit t = [] && t.dp && t.pc = 0x0202#16) := by decide

/-- DR6: horizontal wrap, the column reduced modulo 64. -/
theorem test_draw_wraps :
    ends (step ({ start 0xD011#16 with i := 0x0300#16 } |> bytes 0x300 [0xFF] |> regs [(0, 0x7C)]))
      (fun t => lit t = [(0, 0), (0, 1), (0, 2), (0, 3), (0, 60), (0, 61), (0, 62), (0, 63)] && t.dp) := by
  decide

/-- DR11: one pixel set, one erased: collision. -/
theorem test_draw_collision :
    ends (step ({ start 0xD011#16 with i := 0x0300#16, fb := flipPixel State.reset.fb 0 1 } |>
        bytes 0x300 [0xC0]))
      (fun t => lit t = [(0, 0)] && t.getV 0xF#4 = 0x01#8 && t.pc = 0x0202#16) := by decide

/-! ### Keypad -/

/-- K5, K2: the low nibble selects the key. -/
theorem test_skip_key_down :
    ends (step { regs [(1, 0x15)] (start 0xE19E#16) with keyCur := 0x0020#16 }) (fun t => t.pc = 0x0204#16) &&
      ends (step { regs [(1, 0x05)] (start 0xE19E#16) with keyCur := 0xFFDF#16 }) (fun t => t.pc = 0x0202#16) := by
  decide

/-- K6, K4. -/
theorem test_skip_key_up :
    ends (step { regs [(1, 0xFF)] (start 0xE1A1#16) with keyCur := 0x8000#16 }) (fun t => t.pc = 0x0202#16) &&
      ends (step { regs [(1, 0x05)] (start 0xE1A1#16) with keyCur := 0xFFDF#16 }) (fun t => t.pc = 0x0204#16) := by
  decide

/-- K9: a held key is no edge. -/
theorem test_key_wait_held :
    ends (step { start 0xF30A#16 with keyCur := 0x0010#16, keyPrev := 0x0010#16 }) (fun t =>
      t.wk && t.pc = 0x0200#16 && t.getV 3#4 = 0x00#8) := by decide

/-- K12 and K16: the least rising key; completion clears `WK`. -/
theorem test_key_wait_rising :
    ends (step { start 0xF30A#16 with keyCur := 0x8104#16, keyPrev := 0x0004#16, wk := true }) (fun t =>
      t.getV 3#4 = 0x08#8 && t.pc = 0x0202#16 && !t.wk) := by decide

/-! ### Timers, index, memory -/

/-- M1. -/
theorem test_read_delay_timer :
    ends (step { regs [(2, 1)] (start 0xF207#16) with dt := 0x3C#8, st := 0x11#8 }) (fun t =>
      t.getV 2#4 = 0x3C#8 && t.dt = 0x3C#8) := by decide

/-- M2. -/
theorem test_set_delay_timer :
    ends (step (regs [(2, 0x3C)] (start 0xF215#16))) (fun t => t.dt = 0x3C#8 && t.st = 0x00#8) := by decide

/-- M3. -/
theorem test_set_sound_timer :
    ends (step (regs [(2, 0x05)] (start 0xF218#16))) (fun t => t.st = 0x05#8 && t.dt = 0x00#8) := by decide

/-- M6. -/
theorem test_load_index : ends (step (start 0xAFFF#16)) (fun t => t.i = 0x0FFF#16) := by decide

/-- M8, M9. -/
theorem test_add_index :
    ends (step (regs [(1, 0xFF), (0xF, 9)] { start 0xF11E#16 with i := 0x0F00#16 })) (fun t =>
        t.i = 0x0FFF#16 && t.getV 0xF#4 = 0x09#8) &&
      ends (step (regs [(1, 0xFF)] { start 0xF11E#16 with i := 0x0F01#16 })) (fun t =>
        t.fc = .indexOutOfRange && t.i = 0x0F01#16 && t.pc = 0x0200#16) := by decide

/-- M14, M15: the last glyph; no mask. -/
theorem test_glyph_address :
    ends (step (regs [(0, 0x0F)] (start 0xF029#16))) (fun t => t.i = 0x009B#16) &&
      ends (step (regs [(0, 0x10)] (start 0xF029#16))) (fun t => t.i = 0x00A0#16) := by decide

/-- M22. -/
theorem test_decimal_last_place :
    ends (step (regs [(5, 0xC7)] { start 0xF533#16 with i := 0x0FFD#16 })) (fun t =>
      t.mem.drop 2 = [(0xFFD, 0x01#8), (0xFFE, 0x09#8), (0xFFF, 0x09#8)] && t.i = 0x0FFD#16) := by decide

/-- M23: checked before the first write. -/
theorem test_decimal_past_end :
    ends (step (regs [(5, 0xC7)] { start 0xF533#16 with i := 0x0FFE#16 })) (fun t =>
      t.fc = .dataOutOfRange && Memory.read t.mem 0xFFE = 0x00#8) := by decide

/-- M24: `x + 1` registers, `I` unchanged. -/
theorem test_store_registers :
    ends (step (regs [(0, 0x11), (1, 0x22), (2, 0x33), (3, 0x44)] { start 0xF255#16 with i := 0x0400#16 }))
      (fun t => t.mem.drop 2 = [(0x400, 0x11#8), (0x401, 0x22#8), (0x402, 0x33#8)] && t.i = 0x0400#16) := by
  decide

/-- M26: no partial store. -/
theorem test_store_past_end :
    ends (step (regs [(0, 0xAB)] { start 0xF155#16 with i := 0x0FFF#16 })) (fun t =>
      t.fc = .dataOutOfRange && Memory.read t.mem 0xFFF = 0x00#8) := by decide

/-- M29. -/
theorem test_load_registers :
    ends (step ({ start 0xF265#16 with i := 0x0400#16 } |> bytes 0x400 [0xDE, 0xAD, 0xBE, 0xEF] |>
        regs [(3, 0x44)]))
      (fun t => t.getV 0#4 = 0xDE#8 && t.getV 1#4 = 0xAD#8 && t.getV 2#4 = 0xBE#8 && t.getV 3#4 = 0x44#8) := by
  decide

/-- M30: loads from the font. -/
theorem test_load_from_font :
    ends (step { start 0xF165#16 with i := 0x0050#16 }) (fun t =>
      t.getV 0#4 = 0xF0#8 && t.getV 1#4 = 0x90#8) := by decide

/-! ### Unknown opcodes and the host's operations -/

/-- A34. -/
theorem test_unknown_opcode :
    ends (step (start 0x8128#16)) (fun t =>
      t.unk && t.pc = 0x0202#16 && t.events = [.unknownOpcode 0x0200#16 0x8128#16]) := by decide

/-- Section 2.5, the table of `TickTimers`, fourth row: a halted core's timers go on. -/
theorem test_tick_timers :
    ends (step { State.reset with dt := 0x03#8, st := 0x05#8, fc := .stackOverflow, schedule := [.tickTimers] })
      (fun t => t.dt = 0x02#8 && t.st = 0x04#8 && t.fc = .stackOverflow && t.schedule = []) := by decide

/-- Section 2.5, first row: a timer at 0 stays there. -/
theorem test_tick_timers_at_zero :
    ends (step { State.reset with schedule := [.tickTimers] }) (fun t => t.dt = 0x00#8 && t.st = 0x00#8) := by
  decide

/-- Section 2.4, the latch, step 3. -/
theorem test_key_update :
    ends (step { State.reset with keyPrev := 0x0008#16, keyCur := 0x0008#16, schedule := [.keyUpdate 0x0009#16] })
      (fun t => t.keyPrev = 0x0008#16 && t.keyCur = 0x0009#16 && t.rising = 0x0001#16) := by decide

/-- Section 2.5, `DrawAck`. -/
theorem test_draw_ack :
    ends (step { State.reset with dp := true, schedule := [.drawAck] }) (fun t => !t.dp) := by decide

/-- S1, fifth row: the tail of an older image stays. -/
theorem test_load_rom :
    ends (step { bytes 0x200 [0xAA, 0xBB, 0xCC, 0xDD] State.reset with schedule := [.loadROM [0x11, 0x22]] })
      (fun t => t.mem = [(0x200, 0x11#8), (0x201, 0x22#8), (0x202, 0xCC#8), (0x203, 0xDD#8)] &&
        t.events = [.romOk]) := by decide

/-- S1, second and third rows: 3584 bytes fit, 3585 do not. -/
theorem test_rom_size : romTooLarge 3584 = false ∧ romTooLarge 3585 = true := by decide

/-- S1, seventh and eighth rows: the font's first and last glyph. -/
theorem test_font :
    ((List.range 5).map fun k => Memory.read State.reset.mem (0x050 + k)) = [0xF0#8, 0x90#8, 0x90#8, 0x90#8, 0xF0#8] ∧
    ((List.range 6).map fun k => Memory.read State.reset.mem (0x09B + k)) =
      [0xF0#8, 0x80#8, 0xF0#8, 0x80#8, 0x80#8, 0x00#8] := by decide

/-- Section 2.7, first row. -/
theorem test_reset :
    ends (step { regs [(7, 0x55)] (bytes 0x050 [0x00] (start 0x1200#16)) with
        fc := .dataOutOfRange, unk := true, schedule := [.reset] })
      (fun t => t = State.reset) := by decide

/-- R128: the order of coinciding requests, and Reset before all. -/
theorem test_coinciding_requests :
    Strobes.operations { reset := false, drawAck := true, keyUpdate := some 0x0001#16, tickTimers := true, runCycle := true } =
        [.drawAck, .keyUpdate 0x0001#16, .tickTimers, .runCycle] ∧
      Strobes.operations { reset := true, drawAck := true, keyUpdate := none, tickTimers := true, runCycle := true } =
        [.reset] := by decide

/-- R35: `DP`, `UNK` set, cause 5. -/
theorem test_status_word :
    State.statusWord { State.reset with dp := true, unk := true, fc := .indexOutOfRange } = 0b00101101#8 := by decide

/-- Log 3: a word placed for the very next step is run by it. -/
theorem test_with_fetch_word :
    ends (step (State.reset.withFetchWord 16 0x6A2F)) (fun t => t.getV 0xA#4 = 0x2F#8 && t.pc = 0x0202#16) := by
  decide

/-! ### Witnesses: for each statement with hypotheses, states and operands that meet them, at the boundary values of each clause -/

theorem witness_DecodeOfEncodeIsIdentity :
    Instr.wf (.opDxyn 0xF#4 0xF#4 0xF#4) = true ∧ Instr.wf (.op1nnn 0xFFF#12) = true := by decide

theorem witness_EncodeOfDecodeIsIdentity : decode 0xFF65#16 = .ok (.opFx65 0xF#4) := by decide

theorem witness_DecodeAgreesWithOpcodeTable :
    decode 0xE0A1#16 = .ok (.opExA1 0x0#4) ∧
      Instr.row (.opExA1 0x0#4) ∈ opcodeRows ∧ 0xE0A1#16 &&& 0xF0FF#16 = 0xE0A1#16 := by decide

theorem witness_StepRunsFetchedInstruction :
    let s := startAt 0x0FFE#16 0x6A2F#16
    s.fc = .noFault ∧ s.pc.toNat + 1 = 0xFFF ∧ decode (opcodeAt s) = .ok (.op6xnn 0xA#4 0x2F#8) ∧
      s.schedule = [] ∧ (s.setSchedule [.runCycle]).schedule = [.runCycle] ∧
      decode (opcodeAt (s.setSchedule [.runCycle])) = .ok (.op6xnn 0xA#4 0x2F#8) := by decide

/-- The last executable address, idle and requested. -/
theorem witness_UnknownOpcodeIsReportedAndSkipped :
    let s := startAt 0x0FFE#16 0xB300#16
    let r := s.setSchedule [.runCycle, .tickTimers]
    CycleRunsFrom s s ∧ CycleRunsFrom r (r.setSchedule [.tickTimers]) ∧ r.fc = .noFault ∧
      r.pc.toNat + 1 = 0xFFF ∧ decode (opcodeAt s) = .error .familyB ∧ decode (opcodeAt r) = .error .familyB :=
  ⟨.inl ⟨rfl, rfl⟩, .inr ⟨_, rfl, rfl⟩, by decide, by decide, by decide, by decide⟩

/-- The lowest `PC` that cannot be fetched, idle and requested. -/
theorem witness_FetchPastTheEndFaults :
    let s : State := { State.reset with pc := 0x0FFF#16 }
    let r := s.setSchedule [.runCycle, .tickTimers]
    CycleRunsFrom s s ∧ CycleRunsFrom r (r.setSchedule [.tickTimers]) ∧ r.fc = .noFault ∧ r.pc.toNat = 0x0FFF :=
  ⟨.inl ⟨rfl, rfl⟩, .inr ⟨_, rfl, rfl⟩, by decide, by decide⟩

theorem witness_HaltedCycleChangesNothing :
    let s : State := { State.reset with fc := .indexOutOfRange }
    s.fc ≠ .noFault ∧ s.schedule = [] ∧ (s.setSchedule [.runCycle]).fc ≠ .noFault := by decide

/-- Every class of R122: a skip, a jump, a call from the last executable address, a return from a full stack, a key
wait without and with a rising key, a sequential instruction, an unknown word, a fault, a halted core. -/
theorem witness_PcMovesByClass :
    (ends (runCycle (start 0x3000#16)) fun t => t.fc = .noFault && t.pc = 0x0204#16) ∧
      (ends (runCycle (start 0x1ABC#16)) fun t => t.fc = .noFault && t.pc = 0x0ABC#16) ∧
      (ends (runCycle (startAt 0x0FFE#16 0x2300#16)) fun t => t.fc = .noFault && t.stack[0] = 0x1000#16) ∧
      (ends (runCycle { start 0x00EE#16 with sp := 16, stack := State.reset.stack.set 15 0x0ABC#16 }) fun t =>
        t.fc = .noFault && t.pc = 0x0ABC#16) ∧
      (ends (runCycle (start 0xF30A#16)) fun t => t.fc = .noFault && t.pc = 0x0200#16) ∧
      (ends (runCycle { start 0xF30A#16 with keyCur := 0x8000#16 }) fun t => t.fc = .noFault && t.pc = 0x0202#16) ∧
      (ends (runCycle (start 0x6A2F#16)) fun t => t.fc = .noFault && t.pc = 0x0202#16) ∧
      (ends (runCycle (start 0x5120#16)) fun t => t.fc = .noFault && t.pc = 0x0202#16) ∧
      (ends (runCycle (start 0x00EE#16)) fun t => t.fc = .stackUnderflow && t.pc = 0x0200#16) ∧
      (ends (runCycle { start 0x1ABC#16 with fc := .stackOverflow }) fun t => t.pc = 0x0200#16) := by decide

/-- A fault with `WK` set, a wait, a completion; idle, and the wait requested. -/
theorem witness_CycleWritesAwaitingKey :
    let f : State := { start 0x00EE#16 with wk := true }
    let w := start 0xF30A#16
    let c : State := { start 0xF30A#16 with keyCur := 0x8000#16, wk := true }
    let r := w.setSchedule [.runCycle]
    (CycleRunsFrom f f ∧ CycleRunsFrom w w ∧ CycleRunsFrom c c ∧ CycleRunsFrom r (r.setSchedule [])) ∧
      (ends (step f) fun t => t.fc ≠ .noFault && t.wk) ∧ (ends (step w) fun t => t.fc = .noFault && t.wk) ∧
      (ends (step c) fun t => t.fc = .noFault && !t.wk) ∧ (ends (step r) fun t => t.fc = .noFault && t.wk) :=
  ⟨⟨.inl ⟨rfl, rfl⟩, .inl ⟨rfl, rfl⟩, .inl ⟨rfl, rfl⟩, .inr ⟨_, rfl, rfl⟩⟩, by decide, by decide, by decide,
    by decide⟩

theorem witness_TickTimersCountsBothDown :
    (State.reset.setSchedule [.tickTimers, .runCycle]).schedule = .tickTimers :: [.runCycle] := by decide

theorem witness_KeyUpdateShiftsTheLatch :
    (State.reset.setSchedule [.keyUpdate 0xFFFF#16]).schedule = .keyUpdate 0xFFFF#16 :: [] := by decide

/-- The smallest ROM that is too large, the largest that fits. -/
theorem witness_LoadRomCopiesOrRefuses :
    (State.reset.setSchedule [.loadROM (List.replicate 3585 0x12#8)]).schedule =
        .loadROM (List.replicate 3585 0x12#8) :: [] ∧
      4096 < (List.replicate 3585 0x12#8).length + 0x200 ∧
      (List.replicate 3584 0x12#8).length + 0x200 ≤ 4096 ∧ Memory.wf State.reset.mem = true := by
  simp only [List.length_replicate]
  exact ⟨rfl, by decide, by decide, by decide⟩

theorem witness_ResetRestoresEverything :
    (State.setSchedule { State.reset with fc := .dataOutOfRange } [.reset]).schedule = .reset :: [] ∧
      Piece.isHardware .fc = true := by decide

theorem witness_HostReadsPixelsRowMajor :
    (State.hostPixel { State.reset with fb := flipPixel State.reset.fb 31 63 } (64 * 31 + 63)).toNat = 1 := by
  decide

theorem witness_CoincidingRequestsAreOrdered :
    let q : Strobes := { reset := false, drawAck := true, keyUpdate := some 0x0003#16, tickTimers := false, runCycle := true }
    q.reset = false ∧ q.keyUpdate = some 0x0003#16 ∧ ({ q with reset := true } : Strobes).reset = true ∧
      ({ q with keyUpdate := none } : Strobes).keyUpdate = none := by decide

theorem witness_CallPushesReturnAddress : ({ State.reset with sp := 15 } : State).sp.val < 16 := by decide

theorem witness_ReturnTakesTopSlot :
    0 < ({ State.reset with sp := 1 } : State).sp.val ∧ 0 < ({ State.reset with sp := 16 } : State).sp.val := by
  decide

theorem witness_StackBoundsFault :
    ({ State.reset with sp := 16 } : State).sp.val = 16 ∧ State.reset.sp.val = 0 := by decide

theorem witness_CallThenReturnComesBack : ({ State.reset with sp := 15 } : State).sp.val < 16 := by decide

theorem witness_AddPutsCarryInVF : (0xE#4 : RegIdx) ≠ 0xF#4 := by decide

theorem witness_SubtractPutsNotBorrowInVF : (0x0#4 : RegIdx) ≠ 0xF#4 := by decide

theorem witness_ShiftsPutDroppedBitInVF : (0x1#4 : RegIdx) ≠ 0xF#4 := by decide

/-- No rows from `I = 0xFFF`; the last row at 0xFFF. -/
theorem witness_DrawXorsSpriteAndReportsCollision :
    ((0x0#4).toNat = 0 ∨ (0x0FFF#16).toNat + (0x0#4).toNat - 1 ≤ 0xFFF) ∧
      (State.setI State.reset 0x0FF1#16).i.toNat + (0xF#4).toNat - 1 = 0xFFF := by decide

/-- Glyph 0 drawn twice from a dark grid: both draws complete, the coordinates stay, a pixel is covered. -/
theorem witness_DrawTwiceRestoresTheGrid :
    let s := State.setI State.reset 0x0050#16
    (s.i.toNat + (0x5#4).toNat - 1 ≤ 0xFFF) ∧
      (ends (exec (.opDxyn 0x0#4 0x1#4 0x5#4) s) fun t =>
        t.getV 0x0#4 = s.getV 0x0#4 && t.getV 0x1#4 = s.getV 0x1#4 &&
          ends (exec (.opDxyn 0x0#4 0x1#4 0x5#4) t) fun u => u.getV 0xF#4 = 0x01#8) ∧
      (∀ r, r < 32 → ∀ c, c < 64 → pixel s.fb r c = false) ∧
      SpriteCovers s (s.getV 0x0#4).toNat (s.getV 0x1#4).toNat (0x5#4).toNat 0 0 :=
  ⟨by decide, by decide, by decide, 0, 0, by decide, by decide, by decide, by decide, by decide⟩

theorem witness_DrawPendingClearedOnlyByHost :
    let s : State := { State.reset with dp := true, schedule := [.drawAck] }
    (ends (step s) fun t => t.dp = false) ∧ s.dp = true := by decide

/-- No key; the highest key alone; a lower key held while the highest rises. -/
theorem witness_KeyWaitStallsOrTakesLeastRisingKey :
    (∀ k, k < 16 → ¬risesAt State.reset k) ∧
      risesAt { State.reset with keyCur := 0x8001#16, keyPrev := 0x0001#16 } 15 ∧
      ∀ j, j < 15 → ¬risesAt { State.reset with keyCur := 0x8001#16, keyPrev := 0x0001#16 } j := by
  unfold risesAt
  decide

theorem witness_LatchChangesOnlyByHost :
    (ends (step (start 0x6A2F#16)) fun _ => true) ∧
      (∀ snapshot rest, (start 0x6A2F#16).schedule ≠ .keyUpdate snapshot :: rest) ∧
      ∀ rest, (start 0x6A2F#16).schedule ≠ .reset :: rest :=
  ⟨by decide, fun _ _ h => (nomatch h), fun _ h => (nomatch h)⟩

theorem witness_AddToIndexOrFault :
    let s := regs [(1, 0xFF)] (State.reset.setI 0x0F00#16)
    let s' := regs [(1, 0xFF)] (State.reset.setI 0x0F01#16)
    s.i.toNat + (s.getV 0x1#4).toNat = 0xFFF ∧ s'.i.toNat + (s'.getV 0x1#4).toNat = 0x1000 := by decide

theorem witness_DecimalDigitsAreStored :
    (State.reset.setI 0x0FFD#16).i.toNat + 2 = 0xFFF ∧ Memory.wf (State.reset.setI 0x0FFD#16).mem = true ∧
      (State.reset.setI 0x0FFE#16).i.toNat + 2 = 0x1000 := by decide

theorem witness_RegistersAreStored :
    (State.reset.setI 0x0FF0#16).i.toNat + (0xF#4).toNat = 0xFFF ∧
      Memory.wf (State.reset.setI 0x0FF0#16).mem = true ∧
      (State.reset.setI 0x0FFF#16).i.toNat + (0x1#4).toNat = 0x1000 := by decide

theorem witness_RegistersAreLoaded :
    (State.reset.setI 0x0FFF#16).i.toNat + (0x0#4).toNat = 0xFFF ∧
      (State.reset.setI 0x0FF1#16).i.toNat + (0xF#4).toNat = 0x1000 := by decide

theorem witness_DrawPastTheEndFaults :
    1 ≤ (0xF#4).toNat ∧ (State.reset.setI 0x0FF2#16).i.toNat + (0xF#4).toNat - 1 = 0x1000 := by decide

/-- `F155` at 0x202 with `I = 0x204`: the two bytes stored are the next opcode. -/
theorem witness_StoredBytesAreFetchedNext :
    let s := regs [(0, 0x6A), (1, 0x2F)] ((startAt 0x0202#16 0xF155#16).setI 0x0204#16)
    s.i.toNat + (0x1#4).toNat ≤ 0xFFF ∧ Memory.wf s.mem = true ∧
      (ends (exec (.opFx55 0x1#4) s) fun t => t.pc.toNat = s.i.toNat + 0 && opcodeAt t = 0x6A2F#16) ∧
      0 + 1 ≤ (0x1#4).toNat := by decide

/-- A state of the invariant at its bounds: `PC` past a skip over the last word, `I = 0xFFF`, the largest return
address live, memory listing a cell. -/
theorem witness_StepKeepsInvariant :
    let s : State := bytes 0x0FFF [0x77]
      { State.reset with pc := 0x1002#16, i := 0x0FFF#16, sp := 16, stack := State.reset.stack.set 15 0x1000#16 }
    MachineInv s ∧ (ends (step s) fun t => t.fc = .fetchOutOfRange) := by
  unfold MachineInv
  decide

theorem witness_FaultsArePreciseAndOwn :
    State.reset.fc = .noFault ∧ (ends (exec .op00EE State.reset) fun t => t.fc ≠ .noFault) := by decide

theorem witness_FaultAndReportBitsAreSticky :
    let s : State := { start 0x6A2F#16 with fc := .stackOverflow, unk := true }
    (ends (step s) fun _ => true) ∧ s.fc ≠ .noFault ∧ s.unk = true ∧ ∀ rest, s.schedule ≠ .reset :: rest :=
  ⟨by decide, by decide, rfl, fun _ h => (nomatch h)⟩

/-- An instruction that completes and one that faults. -/
theorem witness_AccessMatrixHolds :
    (ends (exec (.op8xy4 0x1#4 0x2#4) (regs [(1, 0xFF), (2, 0x02)] State.reset)) fun t =>
        t.getV 0x1#4 = 0x01#8 && t.fc = .noFault) ∧
      (ends (exec .op00EE State.reset) fun t => t.fc ≠ .noFault) := by decide

/-- A register that changes as the destination, `VF` that changes as the flag, no fault. -/
theorem witness_RegistersChangeOnlyAsDestinationOrFlag :
    let s := regs [(1, 0xFF), (2, 0x02)] State.reset
    (ends (exec (.op8xy4 0x1#4 0x2#4) s) fun t =>
        t.getV 0x1#4 ≠ s.getV 0x1#4 && t.getV 0xF#4 ≠ s.getV 0xF#4 && t.fc = s.fc) ∧
      writesFlag (.op8xy4 0x1#4 0x2#4) = true ∧ s.fc = .noFault := by decide

/-- A store, and an address on each side of the stored bytes. -/
theorem witness_MemoryFrameOfEveryInstruction :
    let s := State.reset.setI 0x0300#16
    (ends (exec (.opFx33 0x0#4) s) fun t => t.pc = 0x0202#16) ∧
      (0x2FF < s.i.toNat ∨ s.i.toNat + storedLength (.opFx33 0x0#4) ≤ 0x2FF) ∧
      (0x303 < s.i.toNat ∨ s.i.toNat + storedLength (.opFx33 0x0#4) ≤ 0x303) := by decide

theorem witness_StatusIsInvisibleToPrograms :
    let s := start 0xF207#16
    let s' : State := { start 0xF207#16 with st := 0x09#8, dp := true, wk := true, unk := true, events := [.romOk] }
    Memory.wf s.mem = true ∧ Memory.wf s'.mem = true ∧ SameToPrograms s s' ∧
      (ends (exec (.opFx07 0x2#4) s) fun _ => true) ∧ (ends (exec (.opFx07 0x2#4) s') fun _ => true) := by
  refine ⟨by decide, by decide, fun p hp => ?_, by decide, by decide⟩
  cases p <;> first | exact absurd (by decide) hp | exact rfl | exact fun _ => rfl | exact fun _ _ => rfl

/-- T2: a jump to itself at 0x200. -/
theorem witness_FinishedRunStaysFinished : (start 0x1200#16).schedule = [] ∧ Finished (start 0x1200#16) := by
  unfold Finished Good
  exact ⟨rfl, by decide, by decide, 0x200#12, by decide, by decide⟩

end Sys2Proof.Tests
end

/-! The host's acknowledgement of a drawn frame (40_operations.md R125). -/

namespace Sys2Proof.Machine

/-- The `DrawAck` arm of the block. -/
@[simp] theorem performOp_drawAck (s : State) : performOp .drawAck s = .next s.drawAck := rfl

/-- The frame of `DrawAck`: a piece is the flag itself, or one the update does not touch. -/
theorem State.drawAck_changesOnly (s : State) : ChangesOnly [.dp] s s.drawAck := by
  intro p hp
  cases p
  case dp => simp at hp
  all_goals simp [Piece.Same]

/-- Settles O15: the state `DrawAck` answers is `s.drawAck`, whose flag is clear and whose frame is
`State.drawAck_changesOnly`. -/
theorem drawAckClearsDrawPending : Obligations.DrawAckClearsDrawPending := fun s =>
  ⟨s.drawAck, performOp_drawAck s, s.drawAck_dp, s.drawAck_changesOnly⟩

end Sys2Proof.Machine

/-! Jumps and register skips (41_control_flow.md R141, R143 to R146). -/

namespace Sys2Proof.Machine

/-! ### The frame of a control transfer -/

/-- The two pieces every control transfer ends by writing are all that such a write changes. -/
theorem State.setPcWk_changesOnly (s : State) (target : Word) (w : Bool) :
    ChangesOnly [.pc, .wk] s { s with pc := target, wk := w } := by
  intro p hp
  cases p
  case pc | wk => simp at hp
  all_goals simp [Piece.Same, State.getV]

theorem State.jumpTo_changesOnly (s : State) (target : Word) : ChangesOnly [.pc, .wk] s (s.jumpTo target) :=
  s.setPcWk_changesOnly target false

theorem State.skipIf_changesOnly (s : State) (c : Bool) : ChangesOnly [.pc, .wk] s (s.skipIf c) :=
  s.setPcWk_changesOnly (if c then s.pc + 4#16 else s.pc + 2#16) false

/-! ### Where a skip on two bytes goes, the bytes compared as numbers -/

/-- A skip on equality (R143). -/
theorem State.skipIf_eq_pc (s : State) (a b : Byte) :
    (s.skipIf (a = b)).pc = if a.toNat = b.toNat then s.pc + 4#16 else s.pc + 2#16 := by
  rw [State.skipIf_pc]
  simp only [decide_eq_true_eq, BitVec.toNat_inj]

/-- A skip on inequality takes the two increments the other way round (R144, R145). -/
theorem State.skipIf_ne_pc (s : State) (a b : Byte) :
    (s.skipIf (a ≠ b)).pc = if a.toNat = b.toNat then s.pc + 2#16 else s.pc + 4#16 := by
  rw [State.skipIf_pc]
  simp only [decide_eq_true_eq, ne_eq, ite_not, BitVec.toNat_inj]

/-! ### What the instructions answer -/

theorem exec_op1nnn (nnn : BitVec 12) (s : State) :
    exec (.op1nnn nnn) s = .next (s.jumpTo (zext16 nnn)) := rfl

theorem exec_op3xnn (x : RegIdx) (nn : Byte) (s : State) :
    exec (.op3xnn x nn) s = .next (s.skipIf (s.getV x = nn)) := rfl

theorem exec_op4xnn (x : RegIdx) (nn : Byte) (s : State) :
    exec (.op4xnn x nn) s = .next (s.skipIf (s.getV x ≠ nn)) := rfl

theorem exec_op9xy0 (x y : RegIdx) (s : State) :
    exec (.op9xy0 x y) s = .next (s.skipIf (s.getV x ≠ s.getV y)) := rfl

/-! ### The statements -/

/-- Settles O22: `1nnn` answers the jump to `zext_16(nnn)`, which keeps the number. -/
theorem jumpSetsPc : Obligations.JumpSetsPc := fun nnn s =>
  ⟨s.jumpTo (zext16 nnn), exec_op1nnn nnn s, zext16_toNat nnn, s.jumpTo_changesOnly _⟩

/-- Settles O27: `3xnn` is a skip on equality, `4xnn` and `9xy0` are skips on inequality. -/
theorem registerSkips : Obligations.RegisterSkips := by
  refine ⟨fun x nn s => ?imm_eq, fun x nn s => ?imm_ne, fun x y s => ?reg_ne⟩
  case imm_eq => exact ⟨_, exec_op3xnn x nn s, s.skipIf_eq_pc _ _, s.skipIf_changesOnly _⟩
  case imm_ne => exact ⟨_, exec_op4xnn x nn s, s.skipIf_ne_pc _ _, s.skipIf_changesOnly _⟩
  case reg_ne => exact ⟨_, exec_op9xy0 x y s, s.skipIf_ne_pc _ _, s.skipIf_changesOnly _⟩

end Sys2Proof.Machine

/-! Register load and add immediate (42_alu.md R160 to R162): one register is written, then the cycle
ends sequentially. -/

namespace Sys2Proof.Machine

/-! ### A register written and the program counter advanced -/

/-- The register frame: `VF` is in it unless it is the register written. -/
theorem State.setV_advance_regsSameBut (s : State) (x : RegIdx) (b : Byte) :
    RegsSameBut [x] s (s.setV x b).advance := by
  intro k hk
  have hkx : k ≠ x := by simpa using hk
  simp [hkx]

/-- The frame of the whole state: a piece is one of the three written, or neither update touches it. -/
theorem State.setV_advance_changesOnly (s : State) (x : RegIdx) (b : Byte) :
    ChangesOnly [.v, .pc, .wk] s (s.setV x b).advance := by
  intro p hp
  cases p
  case v | pc | wk => simp at hp
  all_goals simp [Piece.Same]

/-- All that an instruction does whose one result goes to `V[x]`, `VF` treated like any other register
(10_state.md R20). -/
theorem State.setV_advance_writes (s : State) (x : RegIdx) (b : Byte) :
    (s.setV x b).advance.getV x = b ∧ RegsSameBut [x] s (s.setV x b).advance ∧
      (s.setV x b).advance.pc = s.pc + 2#16 ∧ ChangesOnly [.v, .pc, .wk] s (s.setV x b).advance :=
  ⟨by simp, s.setV_advance_regsSameBut x b, by simp, s.setV_advance_changesOnly x b⟩

/-! ### What the instructions answer -/

theorem exec_op6xnn (x : RegIdx) (nn : Byte) (s : State) :
    exec (.op6xnn x nn) s = .next (s.setV x nn).advance := rfl

theorem exec_op7xnn (x : RegIdx) (nn : Byte) (s : State) :
    exec (.op7xnn x nn) s = .next (s.setV x (sumByte (s.getV x) nn)).advance := rfl

theorem exec_op8xy0 (x y : RegIdx) (s : State) :
    exec (.op8xy0 x y) s = .next (s.setV x (s.getV y)).advance := rfl

/-! ### The statements -/

/-- Settles O28: `6xnn` writes the immediate and `8xy0` the other register's old byte, each as one
register write before the cycle ends. -/
theorem loadImmediateAndAssign : Obligations.LoadImmediateAndAssign := by
  refine ⟨fun x nn s => ?load, fun x y s => ?assign⟩
  case load => exact ⟨_, exec_op6xnn x nn s, s.setV_advance_writes x nn⟩
  case assign => exact ⟨_, exec_op8xy0 x y s, s.setV_advance_writes x (s.getV y)⟩

/-- Settles O29: `7xnn` writes one register, with the byte whose number is `sumByte_toNat`. -/
theorem addImmediateWrapsWithoutFlag : Obligations.AddImmediateWrapsWithoutFlag := by
  intro x nn s
  obtain ⟨hsum, hframe⟩ := s.setV_advance_writes x (sumByte (s.getV x) nn)
  exact ⟨_, exec_op7xnn x nn s, by rw [hsum, sumByte_toNat], hframe⟩

end Sys2Proof.Machine

/-! Clear screen (43_display.md R191): the framebuffer is replaced, `DP` set, then the cycle ends
sequentially. -/

namespace Sys2Proof.Machine

/-! ### The framebuffer replaced and the program counter advanced -/

/-- The frame of the whole state: a piece is one of the four written, or neither update touches it. -/
theorem State.drawn_advance_changesOnly (s : State) (fb : Vector (BitVec 64) 32) :
    ChangesOnly [.fb, .dp, .pc, .wk] s (s.drawn fb).advance := by
  intro p hp
  cases p
  case fb | dp | pc | wk => simp at hp
  all_goals simp [Piece.Same]

/-! ### What the instruction answers -/

theorem exec_op00E0 (s : State) :
    exec .op00E0 s = .next (s.drawn (Vector.replicate 32 0#64)).advance := rfl

/-! ### The statement -/

/-- Settles O35: `00E0` answers the drawing of a cleared framebuffer (`pixel_clear`), which sets `DP`
whatever the framebuffer and `DP` were. -/
theorem clearScreenClearsEveryPixel : Obligations.ClearScreenClearsEveryPixel := by
  intro s
  refine ⟨_, exec_op00E0 s, fun r c _ _ => ?pixels, ?drawPending, ?sequential, s.drawn_advance_changesOnly _⟩
  case pixels => rw [State.advance_fb, State.drawn_fb, pixel_clear]
  case drawPending => rw [State.advance_dp, State.drawn_dp]
  case sequential => rw [State.advance_pc, State.drawn_pc]

end Sys2Proof.Machine

/-! Load index (45_timers_index_memory.md R233): `I` is replaced, then the cycle ends sequentially. -/

namespace Sys2Proof.Machine

/-! ### The index register written and the program counter advanced -/

/-- The frame of the whole state: a piece is one of the three written, or neither update touches it. -/
theorem State.setI_advance_changesOnly (s : State) (w : Word) :
    ChangesOnly [.i, .pc, .wk] s (s.setI w).advance := by
  intro p hp
  cases p
  case i | pc | wk => simp at hp
  all_goals simp [Piece.Same]

/-! ### What the instruction answers -/

theorem exec_opAnnn (nnn : BitVec 12) (s : State) :
    exec (.opAnnn nnn) s = .next (s.setI (zext16 nnn)).advance := rfl

/-! ### The statement -/

/-- Settles O43: `Annn` answers the write of `zext_16(nnn)` to `I`, which keeps the number
(`zext16_toNat`), before the cycle ends. -/
theorem loadIndex : Obligations.LoadIndex := by
  intro nnn s
  refine ⟨_, exec_opAnnn nnn s, ?index, ?sequential, s.setI_advance_changesOnly _⟩
  case index => rw [State.advance_i, State.setI_i, zext16_toNat]
  case sequential => rw [State.advance_pc, State.setI_pc]

end Sys2Proof.Machine

/-! The decoder and the encoder (30_encoding.md sections 3 to 7). -/

namespace Sys2Proof

/-! ### Decoding what was encoded -/

/-- The decoder takes every instruction's word back to the instruction: the fields of a laid-out word are
the operands (R92, R93), and the literals choose the branch (R95). -/
theorem decode_encode (i : Instr) : decode (encode i) = .ok i := by
  cases i
  case op00E0 | op00EE => decide
  all_goals simp [encode, decode, decodeFamily8, decodeFamilyE, decodeFamilyF]

/-- Settles O1: the two bytes of an encoding assemble to its word, which decodes to the instruction. -/
theorem decodeOfEncodeIsIdentity : Obligations.DecodeOfEncodeIsIdentity := by
  intro i rest _
  simp only [encodeBytes, List.cons_append, List.nil_append, decodeBytes, assembleOpcode_bytes, decode_encode]

/-! ### Words of a known family, laid out from their fields -/

theorem wordNNN_of_family {op : Word} {f : BitVec 4} (h : fieldFamily op = f) :
    wordNNN f (fieldNNN op) = op := h ▸ wordNNN_fields op

theorem wordXNN_of_family {op : Word} {f : BitVec 4} (h : fieldFamily op = f) :
    wordXNN f (fieldX op) (fieldNN op) = op := h ▸ wordXNN_fields op

theorem wordXYN_of_family {op : Word} {f : BitVec 4} (h : fieldFamily op = f) :
    wordXYN f (fieldX op) (fieldY op) (fieldN op) = op := h ▸ wordXYN_fields op

/-! ### The branch of the decoder that each family takes (R95) -/

section
variable {op : Word}

theorem decode_of_family_0 (h : fieldFamily op = 0x0#4) :
    decode op = decodeFamily0 op := by
  simp [decode, h]

theorem decode_of_family_1 (h : fieldFamily op = 0x1#4) :
    decode op = .ok (.op1nnn (fieldNNN op)) := by
  simp [decode, h]

theorem decode_of_family_2 (h : fieldFamily op = 0x2#4) :
    decode op = .ok (.op2nnn (fieldNNN op)) := by
  simp [decode, h]

theorem decode_of_family_3 (h : fieldFamily op = 0x3#4) :
    decode op = .ok (.op3xnn (fieldX op) (fieldNN op)) := by
  simp [decode, h]

theorem decode_of_family_4 (h : fieldFamily op = 0x4#4) :
    decode op = .ok (.op4xnn (fieldX op) (fieldNN op)) := by
  simp [decode, h]

theorem decode_of_family_5 (h : fieldFamily op = 0x5#4) :
    decode op = .error .family5 := by
  simp [decode, h]

theorem decode_of_family_6 (h : fieldFamily op = 0x6#4) :
    decode op = .ok (.op6xnn (fieldX op) (fieldNN op)) := by
  simp [decode, h]

theorem decode_of_family_7 (h : fieldFamily op = 0x7#4) :
    decode op = .ok (.op7xnn (fieldX op) (fieldNN op)) := by
  simp [decode, h]

theorem decode_of_family_8 (h : fieldFamily op = 0x8#4) :
    decode op = decodeFamily8 (fieldX op) (fieldY op) (fieldN op) := by
  simp [decode, h]

theorem decode_of_family_9 (h : fieldFamily op = 0x9#4) :
    decode op = if fieldN op = 0x0#4 then .ok (.op9xy0 (fieldX op) (fieldY op)) else .error .family9 := by
  simp [decode, h]

theorem decode_of_family_A (h : fieldFamily op = 0xA#4) :
    decode op = .ok (.opAnnn (fieldNNN op)) := by
  simp [decode, h]

theorem decode_of_family_B (h : fieldFamily op = 0xB#4) :
    decode op = .error .familyB := by
  simp [decode, h]

theorem decode_of_family_C (h : fieldFamily op = 0xC#4) :
    decode op = .ok (.opCxnn (fieldX op) (fieldNN op)) := by
  simp [decode, h]

theorem decode_of_family_D (h : fieldFamily op = 0xD#4) :
    decode op = .ok (.opDxyn (fieldX op) (fieldY op) (fieldN op)) := by
  simp [decode, h]

theorem decode_of_family_E (h : fieldFamily op = 0xE#4) :
    decode op = decodeFamilyE (fieldX op) (fieldNN op) := by
  simp [decode, h]

theorem decode_of_family_F (h : fieldFamily op = 0xF#4) :
    decode op = decodeFamilyF (fieldX op) (fieldNN op) := by
  simp [decode, h]

end

/-- There are sixteen families. -/
theorem family_cases (f : BitVec 4) : f = 0x0#4 ∨ f = 0x1#4 ∨ f = 0x2#4 ∨ f = 0x3#4 ∨ f = 0x4#4 ∨
    f = 0x5#4 ∨ f = 0x6#4 ∨ f = 0x7#4 ∨ f = 0x8#4 ∨ f = 0x9#4 ∨ f = 0xA#4 ∨ f = 0xB#4 ∨ f = 0xC#4 ∨
    f = 0xD#4 ∨ f = 0xE#4 ∨ f = 0xF#4 := by
  revert f
  decide

/-! ### Encoding what was decoded -/

theorem encode_of_decodeFamily0 {op : Word} {i : Instr} (h : decodeFamily0 op = .ok i) : encode i = op := by
  unfold decodeFamily0 at h
  split_ifs at h <;> cases h <;> simp_all [encode]

theorem encode_of_decodeFamily8 {x y : RegIdx} {n : BitVec 4} {i : Instr} (h : decodeFamily8 x y n = .ok i) :
    encode i = wordXYN 0x8#4 x y n := by
  unfold decodeFamily8 at h
  split_ifs at h <;> cases h <;> simp_all [encode]

theorem encode_of_decodeFamilyE {x : RegIdx} {nn : Byte} {i : Instr} (h : decodeFamilyE x nn = .ok i) :
    encode i = wordXNN 0xE#4 x nn := by
  unfold decodeFamilyE at h
  split_ifs at h <;> cases h <;> simp_all [encode]

theorem encode_of_decodeFamilyF {x : RegIdx} {nn : Byte} {i : Instr} (h : decodeFamilyF x nn = .ok i) :
    encode i = wordXNN 0xF#4 x nn := by
  unfold decodeFamilyF at h
  split_ifs at h <;> cases h <;> simp_all [encode]

/-- Settles O2: in every branch of the decoder the instruction's fields, laid out again, are the word's. -/
theorem encodeOfDecodeIsIdentity : Obligations.EncodeOfDecodeIsIdentity := by
  intro op i h
  rcases family_cases (fieldFamily op) with
    hf | hf | hf | hf | hf | hf | hf | hf | hf | hf | hf | hf | hf | hf | hf | hf
  · rw [decode_of_family_0 hf] at h
    exact encode_of_decodeFamily0 h
  · rw [decode_of_family_1 hf] at h
    cases h
    exact wordNNN_of_family hf
  · rw [decode_of_family_2 hf] at h
    cases h
    exact wordNNN_of_family hf
  · rw [decode_of_family_3 hf] at h
    cases h
    exact wordXNN_of_family hf
  · rw [decode_of_family_4 hf] at h
    cases h
    exact wordXNN_of_family hf
  · rw [decode_of_family_5 hf] at h
    cases h
  · rw [decode_of_family_6 hf] at h
    cases h
    exact wordXNN_of_family hf
  · rw [decode_of_family_7 hf] at h
    cases h
    exact wordXNN_of_family hf
  · rw [decode_of_family_8 hf] at h
    exact (encode_of_decodeFamily8 h).trans (wordXYN_of_family hf)
  · rw [decode_of_family_9 hf] at h
    split at h
    · next hn =>
      cases h
      rw [encode, ← hn]
      exact wordXYN_of_family hf
    · cases h
  · rw [decode_of_family_A hf] at h
    cases h
    exact wordNNN_of_family hf
  · rw [decode_of_family_B hf] at h
    cases h
  · rw [decode_of_family_C hf] at h
    cases h
    exact wordXNN_of_family hf
  · rw [decode_of_family_D hf] at h
    cases h
    exact wordXYN_of_family hf
  · rw [decode_of_family_E hf] at h
    exact (encode_of_decodeFamilyE h).trans (wordXNN_of_family hf)
  · rw [decode_of_family_F hf] at h
    exact (encode_of_decodeFamilyF h).trans (wordXNN_of_family hf)

/-! ### The opcode table (R96) -/

open Laws.EncodedRow in
/-- An instruction's word lies in its own row. -/
theorem encode_and_mask : (i : Instr) → encode i &&& i.row.mask = i.row.pattern
  | .op00E0 => op00E0
  | .op00EE => op00EE
  | .op1nnn nnn => op1nnn nnn
  | .op2nnn nnn => op2nnn nnn
  | .op3xnn x nn => op3xnn x nn
  | .op4xnn x nn => op4xnn x nn
  | .op6xnn x nn => op6xnn x nn
  | .op7xnn x nn => op7xnn x nn
  | .op8xy0 x y => op8xy0 x y
  | .op8xy1 x y => op8xy1 x y
  | .op8xy2 x y => op8xy2 x y
  | .op8xy3 x y => op8xy3 x y
  | .op8xy4 x y => op8xy4 x y
  | .op8xy5 x y => op8xy5 x y
  | .op8xy6 x y => op8xy6 x y
  | .op8xy7 x y => op8xy7 x y
  | .op8xyE x y => op8xyE x y
  | .op9xy0 x y => op9xy0 x y
  | .opAnnn nnn => opAnnn nnn
  | .opCxnn x nn => opCxnn x nn
  | .opDxyn x y n => opDxyn x y n
  | .opEx9E x => opEx9E x
  | .opExA1 x => opExA1 x
  | .opFx07 x => opFx07 x
  | .opFx0A x => opFx0A x
  | .opFx15 x => opFx15 x
  | .opFx18 x => opFx18 x
  | .opFx1E x => opFx1E x
  | .opFx29 x => opFx29 x
  | .opFx33 x => opFx33 x
  | .opFx55 x => opFx55 x
  | .opFx65 x => opFx65 x

/-- The table has a row for every instruction. -/
theorem row_mem_opcodeRows (i : Instr) : i.row ∈ opcodeRows := by
  cases i <;> simp [opcodeRows, Instr.row]

/-- Every row of the table is some instruction's. -/
theorem exists_instr_of_mem_opcodeRows : ∀ row ∈ opcodeRows, ∃ j : Instr, j.row = row := by
  simp [opcodeRows]

/-- A word under mask 0xF000 shows its family. -/
theorem fieldFamily_of_masked {op : Word} {f : BitVec 4} (h : op &&& 0xF000#16 = f ++ 0#12) :
    fieldFamily op = f := by
  rw [← wordNNN_fields op, Laws.EncodedRow.wordNNN_masked] at h
  simpa using congrArg fieldFamily (show wordNNN (fieldFamily op) 0#12 = wordNNN f 0#12 from h)

/-- A word under mask 0xF0FF shows its family and its low byte. -/
theorem wordXNN_of_masked_low {op : Word} {f : BitVec 4} {nn : Byte}
    (h : op &&& 0xF0FF#16 = f ++ (0#4 ++ nn : BitVec 12)) : wordXNN f (fieldX op) nn = op := by
  rw [← wordXNN_fields op, Laws.EncodedRow.wordXNN_masked_low] at h
  have h : wordXNN (fieldFamily op) 0#4 (fieldNN op) = wordXNN f 0#4 nn := h
  have hf : fieldFamily op = f := by simpa using congrArg fieldFamily h
  have hn : fieldNN op = nn := by simpa using congrArg fieldNN h
  rw [← hn]
  exact wordXNN_of_family hf

/-- A word under mask 0xF00F shows its family and its low nibble. -/
theorem wordXYN_of_masked_low {op : Word} {f n : BitVec 4}
    (h : op &&& 0xF00F#16 = f ++ (0#4 ++ (0#4 ++ n : BitVec 8) : BitVec 12)) :
    wordXYN f (fieldX op) (fieldY op) n = op := by
  rw [← wordXYN_fields op, Laws.EncodedRow.wordXYN_masked_low] at h
  have h : wordXYN (fieldFamily op) 0#4 0#4 (fieldN op) = wordXYN f 0#4 0#4 n := h
  have hf : fieldFamily op = f := by simpa using congrArg fieldFamily h
  have hn : fieldN op = n := by simpa using congrArg fieldN h
  rw [← hn]
  exact wordXYN_of_family hf

theorem wordNNN_of_masked {op : Word} {f : BitVec 4} (h : op &&& 0xF000#16 = f ++ 0#12) :
    wordNNN f (fieldNNN op) = op := wordNNN_of_family (fieldFamily_of_masked h)

theorem wordXNN_of_masked {op : Word} {f : BitVec 4} (h : op &&& 0xF000#16 = f ++ 0#12) :
    wordXNN f (fieldX op) (fieldNN op) = op := wordXNN_of_family (fieldFamily_of_masked h)

theorem wordXYN_of_masked {op : Word} {f : BitVec 4} (h : op &&& 0xF000#16 = f ++ 0#12) :
    wordXYN f (fieldX op) (fieldY op) (fieldN op) = op := wordXYN_of_family (fieldFamily_of_masked h)

/-- A word with all 16 bits in the mask is the pattern. -/
theorem eq_of_masked_full {op pattern : Word} (h : op &&& 0xFFFF#16 = pattern) : pattern = op :=
  h.symm.trans BitVec.and_allOnes

/-- A word of a row is the encoding of an instruction of that row: the one with the word's own fields. -/
theorem exists_encode_of_masked {op : Word} : (j : Instr) → op &&& j.row.mask = j.row.pattern →
    ∃ i : Instr, i.row = j.row ∧ encode i = op
  | .op00E0, h => ⟨.op00E0, rfl, eq_of_masked_full h⟩
  | .op00EE, h => ⟨.op00EE, rfl, eq_of_masked_full h⟩
  | .op1nnn _, h => ⟨.op1nnn (fieldNNN op), rfl, wordNNN_of_masked h⟩
  | .op2nnn _, h => ⟨.op2nnn (fieldNNN op), rfl, wordNNN_of_masked h⟩
  | .op3xnn _ _, h => ⟨.op3xnn (fieldX op) (fieldNN op), rfl, wordXNN_of_masked h⟩
  | .op4xnn _ _, h => ⟨.op4xnn (fieldX op) (fieldNN op), rfl, wordXNN_of_masked h⟩
  | .op6xnn _ _, h => ⟨.op6xnn (fieldX op) (fieldNN op), rfl, wordXNN_of_masked h⟩
  | .op7xnn _ _, h => ⟨.op7xnn (fieldX op) (fieldNN op), rfl, wordXNN_of_masked h⟩
  | .op8xy0 _ _, h => ⟨.op8xy0 (fieldX op) (fieldY op), rfl, wordXYN_of_masked_low h⟩
  | .op8xy1 _ _, h => ⟨.op8xy1 (fieldX op) (fieldY op), rfl, wordXYN_of_masked_low h⟩
  | .op8xy2 _ _, h => ⟨.op8xy2 (fieldX op) (fieldY op), rfl, wordXYN_of_masked_low h⟩
  | .op8xy3 _ _, h => ⟨.op8xy3 (fieldX op) (fieldY op), rfl, wordXYN_of_masked_low h⟩
  | .op8xy4 _ _, h => ⟨.op8xy4 (fieldX op) (fieldY op), rfl, wordXYN_of_masked_low h⟩
  | .op8xy5 _ _, h => ⟨.op8xy5 (fieldX op) (fieldY op), rfl, wordXYN_of_masked_low h⟩
  | .op8xy6 _ _, h => ⟨.op8xy6 (fieldX op) (fieldY op), rfl, wordXYN_of_masked_low h⟩
  | .op8xy7 _ _, h => ⟨.op8xy7 (fieldX op) (fieldY op), rfl, wordXYN_of_masked_low h⟩
  | .op8xyE _ _, h => ⟨.op8xyE (fieldX op) (fieldY op), rfl, wordXYN_of_masked_low h⟩
  | .op9xy0 _ _, h => ⟨.op9xy0 (fieldX op) (fieldY op), rfl, wordXYN_of_masked_low h⟩
  | .opAnnn _, h => ⟨.opAnnn (fieldNNN op), rfl, wordNNN_of_masked h⟩
  | .opCxnn _ _, h => ⟨.opCxnn (fieldX op) (fieldNN op), rfl, wordXNN_of_masked h⟩
  | .opDxyn _ _ _, h => ⟨.opDxyn (fieldX op) (fieldY op) (fieldN op), rfl, wordXYN_of_masked h⟩
  | .opEx9E _, h => ⟨.opEx9E (fieldX op), rfl, wordXNN_of_masked_low h⟩
  | .opExA1 _, h => ⟨.opExA1 (fieldX op), rfl, wordXNN_of_masked_low h⟩
  | .opFx07 _, h => ⟨.opFx07 (fieldX op), rfl, wordXNN_of_masked_low h⟩
  | .opFx0A _, h => ⟨.opFx0A (fieldX op), rfl, wordXNN_of_masked_low h⟩
  | .opFx15 _, h => ⟨.opFx15 (fieldX op), rfl, wordXNN_of_masked_low h⟩
  | .opFx18 _, h => ⟨.opFx18 (fieldX op), rfl, wordXNN_of_masked_low h⟩
  | .opFx1E _, h => ⟨.opFx1E (fieldX op), rfl, wordXNN_of_masked_low h⟩
  | .opFx29 _, h => ⟨.opFx29 (fieldX op), rfl, wordXNN_of_masked_low h⟩
  | .opFx33 _, h => ⟨.opFx33 (fieldX op), rfl, wordXNN_of_masked_low h⟩
  | .opFx55 _, h => ⟨.opFx55 (fieldX op), rfl, wordXNN_of_masked_low h⟩
  | .opFx65 _, h => ⟨.opFx65 (fieldX op), rfl, wordXNN_of_masked_low h⟩

/-- Settles O3: a decoded word is an encoding, which lies in its row; a word of a row is an encoding of that
row, which decodes to itself. -/
theorem decodeAgreesWithOpcodeTable : Obligations.DecodeAgreesWithOpcodeTable := by
  refine ⟨fun op i h => ⟨row_mem_opcodeRows i, ?inRow⟩, fun op row hrow hm => ?decodes⟩
  case inRow =>
    rw [← encodeOfDecodeIsIdentity op i h]
    exact encode_and_mask i
  case decodes =>
    obtain ⟨j, rfl⟩ := exists_instr_of_mem_opcodeRows row hrow
    obtain ⟨i, hi, rfl⟩ := exists_encode_of_masked j hm
    exact ⟨i, decode_encode i, hi⟩

/-- No pattern stands twice in the table. -/
theorem opcodeRows_patterns_ne : opcodeRows.Pairwise fun r q => r.pattern ≠ q.pattern := by decide

/-- Settles O4: a word in two rows of the table decodes to one instruction, whose row is both; but two rows
differ in their patterns. -/
theorem opcodeRowsDoNotOverlap : Obligations.OpcodeRowsDoNotOverlap := by
  refine opcodeRows_patterns_ne.imp_of_mem fun {r q} hr hq hne op => ?_
  rintro ⟨hor, hoq⟩
  obtain ⟨i, hi, rfl⟩ := decodeAgreesWithOpcodeTable.2 op r hr hor
  obtain ⟨j, hj, rfl⟩ := decodeAgreesWithOpcodeTable.2 op q hq hoq
  obtain rfl : i = j := Except.ok.inj (hi.symm.trans hj)
  exact hne rfl

/-! ### Unrecognised words (R97) -/

/-- R97's table on the fields of a word: what falls under each of its rows. -/
def FallsUnder (op : Word) : Unrecognised → Prop
  | .family0 => fieldFamily op = 0x0#4 ∧ op ≠ 0x00E0#16 ∧ op ≠ 0x00EE#16
  | .family5 => fieldFamily op = 0x5#4
  | .family8 => fieldFamily op = 0x8#4 ∧ fieldN op ∈ [0x8#4, 0x9#4, 0xA#4, 0xB#4, 0xC#4, 0xD#4, 0xF#4]
  | .family9 => fieldFamily op = 0x9#4 ∧ fieldN op ≠ 0x0#4
  | .familyB => fieldFamily op = 0xB#4
  | .familyE => fieldFamily op = 0xE#4 ∧ fieldNN op ∉ [0x9E#8, 0xA1#8]
  | .familyF => fieldFamily op = 0xF#4 ∧
      fieldNN op ∉ [0x07#8, 0x0A#8, 0x15#8, 0x18#8, 0x1E#8, 0x29#8, 0x33#8, 0x55#8, 0x65#8]
  | .truncated => False

theorem decodeFamily0_error_iff (op : Word) (e : Unrecognised) :
    decodeFamily0 op = .error e ↔ e = .family0 ∧ op ≠ 0x00E0#16 ∧ op ≠ 0x00EE#16 := by
  unfold decodeFamily0
  split_ifs <;> simp_all [@eq_comm Unrecognised]

/-- The nibbles that select no instruction of family 8. -/
theorem family8_nibbles (n : BitVec 4) : n ∈ [0x8#4, 0x9#4, 0xA#4, 0xB#4, 0xC#4, 0xD#4, 0xF#4] ↔
    n ∉ [0x0#4, 0x1#4, 0x2#4, 0x3#4, 0x4#4, 0x5#4, 0x6#4, 0x7#4, 0xE#4] := by
  revert n
  decide

theorem decodeFamily8_error_iff (x y : RegIdx) (n : BitVec 4) (e : Unrecognised) :
    decodeFamily8 x y n = .error e ↔
      e = .family8 ∧ n ∈ [0x8#4, 0x9#4, 0xA#4, 0xB#4, 0xC#4, 0xD#4, 0xF#4] := by
  rw [family8_nibbles]
  unfold decodeFamily8
  split_ifs <;> simp_all [@eq_comm Unrecognised]

theorem decodeFamilyE_error_iff (x : RegIdx) (nn : Byte) (e : Unrecognised) :
    decodeFamilyE x nn = .error e ↔ e = .familyE ∧ nn ∉ [0x9E#8, 0xA1#8] := by
  unfold decodeFamilyE
  split_ifs <;> simp_all [@eq_comm Unrecognised]

theorem decodeFamilyF_error_iff (x : RegIdx) (nn : Byte) (e : Unrecognised) :
    decodeFamilyF x nn = .error e ↔ e = .familyF ∧
      nn ∉ [0x07#8, 0x0A#8, 0x15#8, 0x18#8, 0x1E#8, 0x29#8, 0x33#8, 0x55#8, 0x65#8] := by
  unfold decodeFamilyF
  split_ifs <;> simp_all [@eq_comm Unrecognised]

/-- The decoder's answer for a word that falls under a row of the table. -/
theorem decode_of_fallsUnder {op : Word} {e : Unrecognised} (h : FallsUnder op e) : decode op = .error e := by
  cases e
  case family0 => rw [decode_of_family_0 h.1, decodeFamily0_error_iff]; exact ⟨rfl, h.2⟩
  case family5 => exact decode_of_family_5 h
  case family8 => rw [decode_of_family_8 h.1, decodeFamily8_error_iff]; exact ⟨rfl, h.2⟩
  case family9 => rw [decode_of_family_9 h.1, if_neg h.2]
  case familyB => exact decode_of_family_B h
  case familyE => rw [decode_of_family_E h.1, decodeFamilyE_error_iff]; exact ⟨rfl, h.2⟩
  case familyF => rw [decode_of_family_F h.1, decodeFamilyF_error_iff]; exact ⟨rfl, h.2⟩
  case truncated => exact h.elim

/-- The row of the table that a word with no instruction falls under. -/
theorem fallsUnder_of_decode {op : Word} {e : Unrecognised} (h : decode op = .error e) : FallsUnder op e := by
  rcases family_cases (fieldFamily op) with
    hf | hf | hf | hf | hf | hf | hf | hf | hf | hf | hf | hf | hf | hf | hf | hf
  · rw [decode_of_family_0 hf] at h
    obtain ⟨rfl, hop⟩ := (decodeFamily0_error_iff _ _).1 h
    exact ⟨hf, hop⟩
  · rw [decode_of_family_1 hf] at h
    cases h
  · rw [decode_of_family_2 hf] at h
    cases h
  · rw [decode_of_family_3 hf] at h
    cases h
  · rw [decode_of_family_4 hf] at h
    cases h
  · rw [decode_of_family_5 hf] at h
    cases h
    exact hf
  · rw [decode_of_family_6 hf] at h
    cases h
  · rw [decode_of_family_7 hf] at h
    cases h
  · rw [decode_of_family_8 hf] at h
    obtain ⟨rfl, hn⟩ := (decodeFamily8_error_iff _ _ _ _).1 h
    exact ⟨hf, hn⟩
  · rw [decode_of_family_9 hf] at h
    split at h
    · cases h
    · next hn =>
      cases h
      exact ⟨hf, hn⟩
  · rw [decode_of_family_A hf] at h
    cases h
  · rw [decode_of_family_B hf] at h
    cases h
    exact hf
  · rw [decode_of_family_C hf] at h
    cases h
  · rw [decode_of_family_D hf] at h
    cases h
  · rw [decode_of_family_E hf] at h
    obtain ⟨rfl, hnn⟩ := (decodeFamilyE_error_iff _ _ _).1 h
    exact ⟨hf, hnn⟩
  · rw [decode_of_family_F hf] at h
    obtain ⟨rfl, hnn⟩ := (decodeFamilyF_error_iff _ _ _).1 h
    exact ⟨hf, hnn⟩

theorem decode_error_iff (op : Word) (e : Unrecognised) : decode op = .error e ↔ FallsUnder op e :=
  ⟨fallsUnder_of_decode, decode_of_fallsUnder⟩

/-! The fields as numbers. -/

theorem fieldFamily_toNat (op : Word) : (fieldFamily op).toNat = op.toNat / 4096 := by
  have := op.isLt
  simp only [fieldFamily, BitVec.extractLsb'_toNat, Nat.shiftRight_eq_div_pow]
  omega

theorem fieldN_toNat (op : Word) : (fieldN op).toNat = op.toNat % 16 := by
  simp [fieldN]

theorem fieldNN_toNat (op : Word) : (fieldNN op).toNat = op.toNat % 256 := by
  simp [fieldNN]

/-- Settles O5: each row of R97's table, its fields read as numbers. -/
theorem unrecognisedWordsByFamily : Obligations.UnrecognisedWordsByFamily := by
  intro op
  simp [decode_error_iff, FallsUnder, BitVec.toNat_eq, fieldFamily_toNat, fieldN_toNat, fieldNN_toNat]

/-- Settles O6: each of the seven words is decoded by evaluation. -/
theorem writtenWordsDecode : Obligations.WrittenWordsDecode := by
  unfold Obligations.WrittenWordsDecode
  decide

end Sys2Proof

/-! Frames: what each update of the state leaves unchanged, and how frames compose. -/

namespace Sys2Proof.Machine

/-! ### The algebra of frames -/

theorem Piece.Same.symm {p : Piece} {s t : State} (h : p.Same s t) : p.Same t s := by
  cases p
  case v | stack | mem => exact fun k => (h k).symm
  case fb => exact fun r c => (h r c).symm
  all_goals exact Eq.symm h

theorem Piece.Same.trans {p : Piece} {s t u : State} (h : p.Same s t) (h' : p.Same t u) : p.Same s u := by
  cases p
  case v | stack | mem => exact fun k => (h' k).trans (h k)
  case fb => exact fun r c => (h' r c).trans (h r c)
  all_goals exact Eq.trans h' h

theorem ChangesOnly.symm {ps : List Piece} {s t : State} (h : ChangesOnly ps s t) : ChangesOnly ps t s :=
  fun p hp => (h p hp).symm

/-- Two updates in a row change what either changes. -/
theorem ChangesOnly.trans {ps qs : List Piece} {s t u : State} (h : ChangesOnly ps s t)
    (h' : ChangesOnly qs t u) : ChangesOnly (ps ++ qs) s u := by
  intro p hp
  rw [List.mem_append, not_or] at hp
  exact (h p hp.1).trans (h' p hp.2)

theorem ChangesOnly.mono {ps qs : List Piece} {s t : State} (h : ChangesOnly ps s t) (hsub : ps ⊆ qs) :
    ChangesOnly qs s t := fun p hp => h p fun hps => hp (hsub hps)

/-! ### One frame per update -/

theorem State.setV_changesOnly (s : State) (x : RegIdx) (b : Byte) : ChangesOnly [.v] s (s.setV x b) := by
  intro p hp
  cases p <;> simp_all [Piece.Same]

theorem State.setResultFlag_changesOnly (s : State) (x : RegIdx) (r f : Byte) :
    ChangesOnly [.v] s (s.setResultFlag x r f) := by
  intro p hp
  cases p <;> simp_all [Piece.Same]

theorem State.loadV_changesOnly (s : State) (x : RegIdx) (a : Nat) : ChangesOnly [.v] s (s.loadV x a) := by
  intro p hp
  cases p <;> simp_all [Piece.Same]

theorem State.setDt_changesOnly (s : State) (b : Byte) : ChangesOnly [.dt] s (s.setDt b) := by
  intro p hp
  cases p <;> simp_all [Piece.Same]

theorem State.setSt_changesOnly (s : State) (b : Byte) : ChangesOnly [.st] s (s.setSt b) := by
  intro p hp
  cases p <;> simp_all [Piece.Same]

theorem State.setMem_changesOnly (s : State) (m : List Host.Cell) : ChangesOnly [.mem] s (s.setMem m) := by
  intro p hp
  cases p <;> simp_all [Piece.Same]

theorem State.setSchedule_changesOnly (s : State) (ops : List HostOp) :
    ChangesOnly [.schedule] s (s.setSchedule ops) := by
  intro p hp
  cases p <;> simp_all [Piece.Same]

theorem State.drawRnd_changesOnly (s : State) : ChangesOnly [.rndCount] s s.drawRnd.2 := by
  intro p hp
  cases p <;> simp_all [Piece.Same]

theorem State.push_changesOnly (s : State) (w : Word) (h : s.sp.val < 16) :
    ChangesOnly [.stack, .sp] s (s.push w h) := by
  intro p hp
  cases p <;> simp_all [Piece.Same]

theorem State.pop_changesOnly (s : State) (h : 0 < s.sp.val) : ChangesOnly [.sp] s (s.pop h) := by
  intro p hp
  cases p <;> simp_all [Piece.Same]

theorem State.advance_changesOnly (s : State) : ChangesOnly [.pc, .wk] s s.advance := by
  intro p hp
  cases p <;> simp_all [Piece.Same]

theorem State.waitHere_changesOnly (s : State) : ChangesOnly [.wk] s s.waitHere := by
  intro p hp
  cases p <;> simp_all [Piece.Same]

theorem State.reportUnknown_changesOnly (s : State) (op : Word) :
    ChangesOnly [.pc, .unk, .wk, .events] s (s.reportUnknown op) := by
  intro p hp
  cases p <;> simp_all [Piece.Same]

theorem State.tickTimers_changesOnly (s : State) : ChangesOnly [.dt, .st] s s.tickTimers := by
  intro p hp
  cases p <;> simp_all [Piece.Same]

theorem State.keyUpdate_changesOnly (s : State) (snapshot : Word) :
    ChangesOnly [.keyPrev, .keyCur] s (s.keyUpdate snapshot) := by
  intro p hp
  cases p <;> simp_all [Piece.Same]

/-! ### Updates that end a cycle -/

theorem State.setResultFlag_advance_changesOnly (s : State) (x : RegIdx) (r f : Byte) :
    ChangesOnly [.v, .pc, .wk] s (s.setResultFlag x r f).advance :=
  (s.setResultFlag_changesOnly x r f).trans (State.advance_changesOnly _)

theorem State.loadV_advance_changesOnly (s : State) (x : RegIdx) (a : Nat) :
    ChangesOnly [.v, .pc, .wk] s (s.loadV x a).advance :=
  (s.loadV_changesOnly x a).trans (State.advance_changesOnly _)

theorem State.setMem_advance_changesOnly (s : State) (m : List Host.Cell) :
    ChangesOnly [.mem, .pc, .wk] s (s.setMem m).advance :=
  (s.setMem_changesOnly m).trans (State.advance_changesOnly _)

theorem State.setV_drawn_advance_changesOnly (s : State) (x : RegIdx) (b : Byte) (fb : Vector (BitVec 64) 32) :
    ChangesOnly [.v, .fb, .dp, .pc, .wk] s ((s.setV x b).drawn fb).advance :=
  (s.setV_changesOnly x b).trans (State.drawn_advance_changesOnly _ fb)

theorem State.setDt_advance_changesOnly (s : State) (b : Byte) :
    ChangesOnly [.dt, .pc, .wk] s (s.setDt b).advance :=
  (s.setDt_changesOnly b).trans (State.advance_changesOnly _)

theorem State.setSt_advance_changesOnly (s : State) (b : Byte) :
    ChangesOnly [.st, .pc, .wk] s (s.setSt b).advance :=
  (s.setSt_changesOnly b).trans (State.advance_changesOnly _)

theorem State.drawRnd_setV_advance_changesOnly (s : State) (x : RegIdx) (b : Byte) :
    ChangesOnly [.v, .rndCount, .pc, .wk] s (s.drawRnd.2.setV x b).advance :=
  (s.drawRnd_changesOnly.trans (State.setV_advance_changesOnly _ x b)).mono (by simp)

theorem State.push_jumpTo_changesOnly (s : State) (w target : Word) (h : s.sp.val < 16) :
    ChangesOnly [.stack, .sp, .pc, .wk] s ((s.push w h).jumpTo target) :=
  (s.push_changesOnly w h).trans (State.jumpTo_changesOnly _ target)

theorem State.pop_jumpTo_changesOnly (s : State) (h : 0 < s.sp.val) (target : Word) :
    ChangesOnly [.sp, .pc, .wk] s ((s.pop h).jumpTo target) :=
  (s.pop_changesOnly h).trans (State.jumpTo_changesOnly _ target)

theorem State.raise_changesOnly (s : State) (c : FaultCause) : ChangesOnly [.fc, .events] s (s.raise c) :=
  (s.raise_entersFault c).2.2

end Sys2Proof.Machine

/-! What each instruction answers, as a composition of updates; one equation per branch where it can fault
or wait. -/

namespace Sys2Proof.Machine

/-! ### Instructions without a branch -/

theorem exec_op8xy1 (x y : RegIdx) (s : State) :
    exec (.op8xy1 x y) s = .next (s.setV x (s.getV x ||| s.getV y)).advance := rfl

theorem exec_op8xy2 (x y : RegIdx) (s : State) :
    exec (.op8xy2 x y) s = .next (s.setV x (s.getV x &&& s.getV y)).advance := rfl

theorem exec_op8xy3 (x y : RegIdx) (s : State) :
    exec (.op8xy3 x y) s = .next (s.setV x (s.getV x ^^^ s.getV y)).advance := rfl

theorem exec_op8xy4 (x y : RegIdx) (s : State) :
    exec (.op8xy4 x y) s = .next (s.setResultFlag x (sumByte (s.getV x) (s.getV y))
      (flagByte (carry (s.getV x) (s.getV y)))).advance := rfl

theorem exec_op8xy5 (x y : RegIdx) (s : State) :
    exec (.op8xy5 x y) s = .next (s.setResultFlag x (diffByte (s.getV x) (s.getV y))
      (flagByte (notBorrow (s.getV x) (s.getV y)))).advance := rfl

theorem exec_op8xy6 (x y : RegIdx) (s : State) :
    exec (.op8xy6 x y) s = .next (s.setResultFlag x (shrByte (s.getV x))
      (flagByte (droppedRight (s.getV x)))).advance := rfl

theorem exec_op8xy7 (x y : RegIdx) (s : State) :
    exec (.op8xy7 x y) s = .next (s.setResultFlag x (diffByte (s.getV y) (s.getV x))
      (flagByte (notBorrow (s.getV y) (s.getV x)))).advance := rfl

theorem exec_op8xyE (x y : RegIdx) (s : State) :
    exec (.op8xyE x y) s = .next (s.setResultFlag x (shlByte (s.getV x))
      (flagByte (droppedLeft (s.getV x)))).advance := rfl

theorem exec_opCxnn (x : RegIdx) (nn : Byte) (s : State) :
    exec (.opCxnn x nn) s = .next (s.drawRnd.2.setV x (Config.rnd s.rndCount &&& nn)).advance := rfl

theorem exec_opEx9E (x : RegIdx) (s : State) :
    exec (.opEx9E x) s = .next (s.skipIf (s.keyDown (selectedKey (s.getV x)))) := rfl

theorem exec_opExA1 (x : RegIdx) (s : State) :
    exec (.opExA1 x) s = .next (s.skipIf (!s.keyDown (selectedKey (s.getV x)))) := rfl

theorem exec_opFx07 (x : RegIdx) (s : State) :
    exec (.opFx07 x) s = .next (s.setV x s.dt).advance := rfl

theorem exec_opFx15 (x : RegIdx) (s : State) :
    exec (.opFx15 x) s = .next (s.setDt (s.getV x)).advance := rfl

theorem exec_opFx18 (x : RegIdx) (s : State) :
    exec (.opFx18 x) s = .next (s.setSt (s.getV x)).advance := rfl

theorem exec_opFx29 (x : RegIdx) (s : State) :
    exec (.opFx29 x) s = .next (s.setI (glyphAddress (s.getV x))).advance := rfl

/-! ### Instructions that can fault -/

section
variable {x y : RegIdx} {s : State}

theorem exec_op00EE_of_pos (h : 0 < s.sp.val) : exec .op00EE s = .next ((s.pop h).jumpTo (s.top h)) := dif_pos h

theorem exec_op00EE_of_empty (h : s.sp.val = 0) : exec .op00EE s = .next (s.raise .stackUnderflow) :=
  dif_neg (by omega)

theorem exec_op2nnn_of_lt (nnn : BitVec 12) (h : s.sp.val < 16) :
    exec (.op2nnn nnn) s = .next ((s.push (s.pc + 2#16) h).jumpTo (zext16 nnn)) := dif_pos h

theorem exec_op2nnn_of_full (nnn : BitVec 12) (h : s.sp.val = 16) :
    exec (.op2nnn nnn) s = .next (s.raise .stackOverflow) := dif_neg (by omega)

theorem exec_opDxyn_of_inside {n : BitVec 4} (h : rangePassesEnd s.i.toNat n.toNat = false) :
    exec (.opDxyn x y n) s =
      .next ((s.setV regF (flagByte (drawSprite s.mem (s.getV x) (s.getV y) s.i.toNat n.toNat s.fb).hit)).drawn
        (drawSprite s.mem (s.getV x) (s.getV y) s.i.toNat n.toNat s.fb).fb).advance := if_neg (by simp [h])

theorem exec_opDxyn_of_outside {n : BitVec 4} (h : rangePassesEnd s.i.toNat n.toNat = true) :
    exec (.opDxyn x y n) s = .next (s.raise .dataOutOfRange) := if_pos h

theorem exec_opFx1E_of_le (h : s.i.toNat + (s.getV x).toNat ≤ 0xFFF) :
    exec (.opFx1E x) s = .next (s.setI (BitVec.ofNat 16 (s.i.toNat + (s.getV x).toNat))).advance :=
  if_neg (by rw [memSize_eq]; omega)

theorem exec_opFx1E_of_gt (h : 0xFFF < s.i.toNat + (s.getV x).toNat) :
    exec (.opFx1E x) s = .next (s.raise .indexOutOfRange) := if_pos h

theorem exec_opFx33_of_le (h : s.i.toNat + 2 ≤ 0xFFF) :
    exec (.opFx33 x) s =
      .next (s.setMem (Memory.writeBytes s.mem s.i.toNat (decimalDigits (s.getV x)))).advance :=
  if_neg (by rw [rangePassesEnd_iff]; omega)

theorem exec_opFx33_of_gt (h : 0xFFF < s.i.toNat + 2) :
    exec (.opFx33 x) s = .next (s.raise .dataOutOfRange) := if_pos (by rw [rangePassesEnd_iff]; omega)

theorem exec_opFx55_of_le (h : s.i.toNat + x.toNat ≤ 0xFFF) :
    exec (.opFx55 x) s = .next (s.setMem (Memory.writeBytes s.mem s.i.toNat (s.bytesV x))).advance :=
  if_neg (by rw [rangePassesEnd_iff]; omega)

theorem exec_opFx55_of_gt (h : 0xFFF < s.i.toNat + x.toNat) :
    exec (.opFx55 x) s = .next (s.raise .dataOutOfRange) := if_pos (by rw [rangePassesEnd_iff]; omega)

theorem exec_opFx65_of_le (h : s.i.toNat + x.toNat ≤ 0xFFF) :
    exec (.opFx65 x) s = .next (s.loadV x s.i.toNat).advance :=
  if_neg (by rw [rangePassesEnd_iff]; omega)

theorem exec_opFx65_of_gt (h : 0xFFF < s.i.toNat + x.toNat) :
    exec (.opFx65 x) s = .next (s.raise .dataOutOfRange) := if_pos (by rw [rangePassesEnd_iff]; omega)

/-! ### The instruction that can wait -/

theorem exec_opFx0A_of_none (h : leastKey s.rising = none) : exec (.opFx0A x) s = .next s.waitHere := by
  simp only [exec, execFx0A, h]

theorem exec_opFx0A_of_some {k : Nat} (h : leastKey s.rising = some k) :
    exec (.opFx0A x) s = .next (s.setV x (BitVec.ofNat 8 k)).advance := by
  simp only [exec, execFx0A, h]

end

end Sys2Proof.Machine

/-! Whole-machine rules over one instruction: the access matrix (10_state.md R38), what memory becomes, and
the rules that follow. -/

namespace Sys2Proof.Machine

/-! ### The access matrix -/

/-- A completed instruction's part of the matrix: its own row, `PC` and `WK`. -/
theorem ChangesOnly.ofRow {i : Instr} {s t : State} (h : ChangesOnly (writtenPieces i ++ [.pc, .wk]) s t) :
    ChangesOnly (mayWrite i) s t := h.mono (by intro p; simp [mayWrite]; tauto)

/-- Fault entry's part of the matrix: `FC` and the events. -/
theorem State.raise_mayWrite {i : Instr} {c : FaultCause} (hc : faultOf i = some c) (s : State) :
    ChangesOnly (mayWrite i) s (s.raise c) := (s.raise_changesOnly c).mono (by simp [mayWrite, hc])

/-- Settles O56: each instruction is fault entry or a composition of updates, whose frame is the
instruction's row of the matrix. -/
theorem accessMatrixHolds : Obligations.AccessMatrixHolds := by
  intro i s t h
  cases i
  case op00E0 => cases h; exact .ofRow (s.drawn_advance_changesOnly _)
  case op00EE =>
    obtain ⟨_, rfl⟩ | ⟨hs, rfl⟩ := exec00EE_cases h
    · exact s.raise_mayWrite rfl
    · exact .ofRow (s.pop_jumpTo_changesOnly hs _)
  case op1nnn => cases h; exact .ofRow (s.jumpTo_changesOnly _)
  case op2nnn =>
    obtain ⟨_, rfl⟩ | ⟨hs, rfl⟩ := exec2nnn_cases h
    · exact s.raise_mayWrite rfl
    · exact .ofRow (s.push_jumpTo_changesOnly _ _ hs)
  case op3xnn | op4xnn | op9xy0 | opEx9E | opExA1 => cases h; exact .ofRow (s.skipIf_changesOnly _)
  case op6xnn | op7xnn | op8xy0 | op8xy1 | op8xy2 | op8xy3 | opFx07 =>
    cases h; exact .ofRow (s.setV_advance_changesOnly _ _)
  case op8xy4 | op8xy5 | op8xy6 | op8xy7 | op8xyE =>
    cases h; exact .ofRow (s.setResultFlag_advance_changesOnly _ _ _)
  case opAnnn | opFx29 => cases h; exact .ofRow (s.setI_advance_changesOnly _)
  case opCxnn => cases h; exact .ofRow (s.drawRnd_setV_advance_changesOnly _ _)
  case opDxyn =>
    obtain ⟨_, rfl⟩ | ⟨_, rfl⟩ := execDxyn_cases h
    · exact s.raise_mayWrite rfl
    · exact .ofRow (s.setV_drawn_advance_changesOnly _ _ _)
  case opFx0A x =>
    obtain ⟨_, rfl⟩ | ⟨k, _, _, _, rfl⟩ := execFx0A_cases h
    · exact s.waitHere_changesOnly.mono (by simp [mayWrite])
    · exact .ofRow (s.setV_advance_changesOnly _ _)
  case opFx15 => cases h; exact .ofRow (s.setDt_advance_changesOnly _)
  case opFx18 => cases h; exact .ofRow (s.setSt_advance_changesOnly _)
  case opFx1E =>
    obtain ⟨_, rfl⟩ | ⟨_, rfl⟩ := execFx1E_cases h
    · exact s.raise_mayWrite rfl
    · exact .ofRow (s.setI_advance_changesOnly _)
  case opFx33 =>
    obtain ⟨_, rfl⟩ | ⟨_, rfl⟩ := execFx33_cases h
    · exact s.raise_mayWrite rfl
    · exact .ofRow (s.setMem_advance_changesOnly _)
  case opFx55 =>
    obtain ⟨_, rfl⟩ | ⟨_, rfl⟩ := execFx55_cases h
    · exact s.raise_mayWrite rfl
    · exact .ofRow (s.setMem_advance_changesOnly _)
  case opFx65 =>
    obtain ⟨_, rfl⟩ | ⟨_, rfl⟩ := execFx65_cases h
    · exact s.raise_mayWrite rfl
    · exact .ofRow (s.loadV_advance_changesOnly _ _)

/-! ### What becomes of memory -/

/-- Memory after an instruction: as it was, or with the stored bytes written from `I` up, inside the address
space (20_memory.md R67). -/
theorem exec_mem {i : Instr} {s t : State} (h : exec i s = .next t) :
    t.mem = s.mem ∨ ∃ bs : List Byte, bs.length = storedLength i ∧ s.i.toNat + bs.length ≤ Config.memSize ∧
      t.mem = Memory.writeBytes s.mem s.i.toNat bs := by
  have hsize := memSize_eq
  cases i
  case op00EE => obtain ⟨_, rfl⟩ | ⟨_, rfl⟩ := exec00EE_cases h <;> exact .inl rfl
  case op2nnn => obtain ⟨_, rfl⟩ | ⟨_, rfl⟩ := exec2nnn_cases h <;> exact .inl rfl
  case opDxyn => obtain ⟨_, rfl⟩ | ⟨_, rfl⟩ := execDxyn_cases h <;> exact .inl rfl
  case opFx0A => obtain ⟨_, rfl⟩ | ⟨_, _, _, _, rfl⟩ := execFx0A_cases h <;> exact .inl rfl
  case opFx1E => obtain ⟨_, rfl⟩ | ⟨_, rfl⟩ := execFx1E_cases h <;> exact .inl rfl
  case opFx65 => obtain ⟨_, rfl⟩ | ⟨_, rfl⟩ := execFx65_cases h <;> exact .inl rfl
  case opFx33 x =>
    obtain ⟨_, rfl⟩ | ⟨hi, rfl⟩ := execFx33_cases h
    · exact .inl rfl
    · exact .inr ⟨_, rfl, by simp [decimalDigits]; omega, rfl⟩
  case opFx55 x =>
    obtain ⟨_, rfl⟩ | ⟨hi, rfl⟩ := execFx55_cases h
    · exact .inl rfl
    · exact .inr ⟨_, s.bytesV_length x, by rw [s.bytesV_length]; omega, rfl⟩
  all_goals cases h; exact .inl rfl

/-- Settles O58: what is not among the stored bytes is not written. -/
theorem memoryFrameOfEveryInstruction : Obligations.MemoryFrameOfEveryInstruction := by
  intro i s t h a ha
  obtain hm | ⟨bs, hlen, -, hm⟩ := exec_mem h
  · rw [hm]
  · rw [hm, Memory.read_writeBytes_outside _ _ _ (by rwa [hlen])]

/-! ### Faults -/

/-- Settles O53: `exec_total` and `runCycle_total`, and the host's operations have no other answer. -/
theorem everyStepAnswersNextState : Obligations.EveryStepAnswersNextState := by
  refine ⟨exec_total, fun s => ?_⟩
  match hs : s.schedule with
  | [] => exact (step_idle hs).symm ▸ runCycle_total s
  | op :: rest =>
    rw [step_request hs]
    cases op
    case runCycle => exact runCycle_total _
    all_goals exact ⟨_, rfl⟩

/-- Settles O54: an instruction that completes leaves `FC`, so a fault is fault entry with its own cause. -/
theorem faultsArePreciseAndOwn : Obligations.FaultsArePreciseAndOwn := by
  intro i s t hs h ht
  obtain ⟨c, hc, rfl⟩ | hk := exec_cases h
  · exact ⟨c, hc, s.raise_entersFault c⟩
  · exact absurd (hk.fc.trans hs) ht

end Sys2Proof.Machine

/-! Logic, arithmetic, shifts and random (42_alu.md sections 1, 3 and 4). -/

namespace Sys2Proof.Machine

/-! ### A result and a flag written and the program counter advanced -/

/-- All that an instruction with a result and a flag does: the flag stands in `VF`, also over a result that
went there (R173). -/
theorem State.setResultFlag_advance_writes (s : State) (x : RegIdx) (r f : Byte) :
    (s.setResultFlag x r f).advance.getV 0xF#4 = f ∧
      (x ≠ 0xF#4 → (s.setResultFlag x r f).advance.getV x = r) ∧
      RegsSameBut [x, 0xF#4] s (s.setResultFlag x r f).advance ∧
      (s.setResultFlag x r f).advance.pc = s.pc + 2#16 ∧
      ChangesOnly [.v, .pc, .wk] s (s.setResultFlag x r f).advance := by
  refine ⟨by simp [regF], fun hx => by simp [regF, hx], fun k hk => ?same, by simp,
    s.setResultFlag_advance_changesOnly x r f⟩
  case same =>
    rw [List.mem_cons, List.mem_singleton, not_or] at hk
    simp [regF, hk.1, hk.2]

/-- The dropped bit of a right shift as a number. -/
theorem flagByte_droppedRight_toNat (a : Byte) : (flagByte (droppedRight a)).toNat = a.toNat % 2 := by
  rw [flagByte_toNat, droppedRight, BitVec.getLsbD, Nat.testBit_zero]
  split <;> simp_all

/-- The dropped bit of a left shift as a number. -/
theorem flagByte_droppedLeft_toNat (a : Byte) : (flagByte (droppedLeft a)).toNat = a.toNat / 128 := by
  have := a.isLt
  rw [flagByte_toNat, droppedLeft, BitVec.getLsbD, Nat.testBit_eq_decide_div_mod_eq]
  split <;> simp_all <;> omega

/-- The carry as a number. -/
theorem flagByte_carry_toNat (a b : Byte) :
    (flagByte (carry a b)).toNat = if 255 < a.toNat + b.toNat then 1 else 0 := by
  simp [flagByte_toNat, carry]

/-- The not-borrow as a number. -/
theorem flagByte_notBorrow_toNat (a b : Byte) :
    (flagByte (notBorrow a b)).toNat = if b.toNat ≤ a.toNat then 1 else 0 := by
  simp [flagByte_toNat, notBorrow]

/-- The difference as a remainder. -/
theorem diffByte_toNat_mod (a b : Byte) : (diffByte a b).toNat = (a.toNat + 256 - b.toNat) % 256 := by
  have := a.isLt
  have := b.isLt
  rw [diffByte_toNat]
  split <;> omega

/-! ### The statements -/

/-- Settles O30: each writes one register, with the byte whose bits are those of the operation. -/
theorem logicIsBitwiseWithoutFlag : Obligations.LogicIsBitwiseWithoutFlag := by
  intro x y s
  refine ⟨?or, ?and, ?xor⟩
  case or =>
    obtain ⟨hx, hframe⟩ := s.setV_advance_writes x (s.getV x ||| s.getV y)
    exact ⟨_, exec_op8xy1 x y s, fun k => by rw [hx, BitVec.getLsbD_or], hframe⟩
  case and =>
    obtain ⟨hx, hframe⟩ := s.setV_advance_writes x (s.getV x &&& s.getV y)
    exact ⟨_, exec_op8xy2 x y s, fun k => by rw [hx, BitVec.getLsbD_and], hframe⟩
  case xor =>
    obtain ⟨hx, hframe⟩ := s.setV_advance_writes x (s.getV x ^^^ s.getV y)
    exact ⟨_, exec_op8xy3 x y s, fun k => by rw [hx, BitVec.getLsbD_xor], hframe⟩

/-- Settles O31: `sumByte` and `carry` as numbers, of the old operands. -/
theorem addPutsCarryInVF : Obligations.AddPutsCarryInVF := by
  intro x y s
  obtain ⟨hf, hx, hframe⟩ := s.setResultFlag_advance_writes x (sumByte (s.getV x) (s.getV y))
    (flagByte (carry (s.getV x) (s.getV y)))
  exact ⟨_, exec_op8xy4 x y s, by rw [hf, flagByte_carry_toNat],
    fun hne => by rw [hx hne, sumByte_toNat], hframe⟩

/-- Settles O32: `diffByte` and `notBorrow` as numbers, the operands exchanged for `8xy7`. -/
theorem subtractPutsNotBorrowInVF : Obligations.SubtractPutsNotBorrowInVF := by
  intro x y s
  refine ⟨?forward, ?reverse⟩
  case forward =>
    obtain ⟨hf, hx, hframe⟩ := s.setResultFlag_advance_writes x (diffByte (s.getV x) (s.getV y))
      (flagByte (notBorrow (s.getV x) (s.getV y)))
    exact ⟨_, exec_op8xy5 x y s, by rw [hf, flagByte_notBorrow_toNat],
      fun hne => by rw [hx hne, diffByte_toNat_mod], hframe⟩
  case reverse =>
    obtain ⟨hf, hx, hframe⟩ := s.setResultFlag_advance_writes x (diffByte (s.getV y) (s.getV x))
      (flagByte (notBorrow (s.getV y) (s.getV x)))
    exact ⟨_, exec_op8xy7 x y s, by rw [hf, flagByte_notBorrow_toNat],
      fun hne => by rw [hx hne, diffByte_toNat_mod], hframe⟩

/-- Settles O33: the shifted byte and the dropped bit as numbers, of `V[x]` alone. -/
theorem shiftsPutDroppedBitInVF : Obligations.ShiftsPutDroppedBitInVF := by
  intro x y s
  refine ⟨?right, ?left⟩
  case right =>
    obtain ⟨hf, hx, hframe⟩ := s.setResultFlag_advance_writes x (shrByte (s.getV x))
      (flagByte (droppedRight (s.getV x)))
    exact ⟨_, exec_op8xy6 x y s, by rw [hf, flagByte_droppedRight_toNat],
      fun hne => by rw [hx hne, shrByte_toNat], hframe⟩
  case left =>
    obtain ⟨hf, hx, hframe⟩ := s.setResultFlag_advance_writes x (shlByte (s.getV x))
      (flagByte (droppedLeft (s.getV x)))
    exact ⟨_, exec_op8xyE x y s, by rw [hf, flagByte_droppedLeft_toNat],
      fun hne => by rw [hx hne, shlByte_toNat, Nat.mul_comm], hframe⟩

/-- Settles O34: one draw, then one register written with the drawn byte under the mask. -/
theorem randomIsFreshByteUnderMask : Obligations.RandomIsFreshByteUnderMask := by
  intro x nn s
  obtain ⟨hx, hregs, hpc, -⟩ := s.drawRnd.2.setV_advance_writes x (Config.rnd s.rndCount &&& nn)
  exact ⟨_, exec_opCxnn x nn s, fun k => by rw [hx, BitVec.getLsbD_and], rfl, hregs, hpc,
    s.drawRnd_setV_advance_changesOnly x _⟩

end Sys2Proof.Machine

/-! The call stack (41_control_flow.md sections 2 and 4; 10_state.md R24). -/

namespace Sys2Proof.Machine

/-- A slot after a push: the pushed word at the old depth, every other as before. -/
theorem State.push_stack_getElem (s : State) (w : Word) (h : s.sp.val < 16) (k : Fin 16) :
    (s.push w h).stack[k] = if k.val = s.sp.val then w else s.stack[k] := by
  simp only [State.push_stack, Fin.getElem_fin, Vector.getElem_set, eq_comm]

/-- What was pushed is on top. -/
theorem State.push_top (s : State) (w : Word) (h : s.sp.val < 16) (h' : 0 < (s.push w h).sp.val) :
    (s.push w h).top h' = w := by
  simp [State.top]

/-- Settles O23: a call below depth 16 is one push and a jump. -/
theorem callPushesReturnAddress : Obligations.CallPushesReturnAddress := by
  intro nnn s h
  refine ⟨_, exec_op2nnn_of_lt nnn h, ?pushed, fun k hk => ?others, rfl, zext16_toNat nnn,
    s.push_jumpTo_changesOnly _ _ h⟩
  case pushed => exact (s.push_stack_getElem _ h ⟨s.sp.val, h⟩).trans (if_pos rfl)
  case others => exact (s.push_stack_getElem _ h k).trans (if_neg hk)

/-- Settles O24: a return above depth 0 is one pop and a jump to what was on top. -/
theorem returnTakesTopSlot : Obligations.ReturnTakesTopSlot := fun s h =>
  ⟨_, exec_op00EE_of_pos h, rfl, rfl, s.pop_jumpTo_changesOnly h _⟩

/-- Settles O25: each bound is the branch that raises the instruction's fault. -/
theorem stackBoundsFault : Obligations.StackBoundsFault :=
  ⟨fun nnn s h => ⟨_, exec_op2nnn_of_full nnn h, s.raise_entersFault _⟩,
    fun s h => ⟨_, exec_op00EE_of_empty h, s.raise_entersFault _⟩⟩

/-- Settles O26: the return pops what the call pushed, so only the slot above the live ones has changed. -/
theorem callThenReturnComesBack : Obligations.CallThenReturnComesBack := by
  intro nnn s h
  have hpos : 0 < ((s.push (s.pc + 2#16) h).jumpTo (zext16 nnn)).sp.val := Nat.succ_pos _
  refine ⟨_, _, exec_op2nnn_of_lt nnn h, exec_op00EE_of_pos hpos, s.push_top _ h hpos,
    fun k hk => ?live, ?frame⟩
  case live => exact (s.push_stack_getElem _ h k).trans (if_neg (by omega))
  case frame =>
    have hframe := (s.push_jumpTo_changesOnly (s.pc + 2#16) (zext16 nnn) h).trans
      (State.pop_jumpTo_changesOnly _ hpos (State.top _ hpos))
    intro p hp
    by_cases hsp : p = .sp
    · subst hsp
      rfl
    · exact hframe p (by simp_all)

end Sys2Proof.Machine

/-! Keys, timers and the index register (44_keypad.md sections 2 and 3; 45_timers_index_memory.md sections 1
and 2). -/

namespace Sys2Proof.Machine

/-- Whether the selected key is down, by its number. -/
theorem State.keyDown_selectedKey (s : State) (b : Byte) :
    s.keyDown (selectedKey b) = s.keyCur.getLsbD (b.toNat % 16) := by
  rw [State.keyDown, selectedKey_toNat]

/-- Settles O39: `Ex9E` is a skip on the selected key, `ExA1` on its negation. -/
theorem keySkips : Obligations.KeySkips := by
  intro x s
  refine ⟨⟨_, exec_opEx9E x s, ?_, s.skipIf_changesOnly _⟩, ⟨_, exec_opExA1 x s, ?_, s.skipIf_changesOnly _⟩⟩
  · rw [State.skipIf_pc, s.keyDown_selectedKey]
  · rw [State.skipIf_pc, s.keyDown_selectedKey]
    cases s.keyCur.getLsbD ((s.getV x).toNat % 16) <;> rfl

/-- No key rises: there is no least one. -/
theorem leastKey_rising_none {s : State} (h : ∀ k, k < 16 → ¬risesAt s k) : leastKey s.rising = none := by
  rw [leastKey_none_iff]
  intro k hk
  have := mt (s.rising_getLsbD hk).1 (h k hk)
  simpa using this

/-- The least key that rises. -/
theorem leastKey_rising_some {s : State} {k : Nat} (hk : k < 16) (h : risesAt s k)
    (hmin : ∀ j, j < k → ¬risesAt s j) : leastKey s.rising = some k := by
  match hl : leastKey s.rising with
  | none =>
    have := (leastKey_none_iff _).1 hl k hk
    rw [(s.rising_getLsbD hk).2 h] at this
    cases this
  | some j =>
    obtain ⟨hj, hbit, hlow⟩ := leastKey_some hl
    have hjr : risesAt s j := (s.rising_getLsbD hj).1 hbit
    rcases Nat.lt_trichotomy j k with hlt | rfl | hgt
    · exact absurd hjr (hmin j hlt)
    · rfl
    · have := hlow k hgt
      rw [(s.rising_getLsbD hk).2 h] at this
      cases this

/-- Settles O40: `Fx0A` follows the least rising key, which is none or the given one. -/
theorem keyWaitStallsOrTakesLeastRisingKey : Obligations.KeyWaitStallsOrTakesLeastRisingKey := by
  intro x s
  refine ⟨fun hnone => ?waits, fun k hk hrises hmin => ?takes⟩
  case waits =>
    exact ⟨_, exec_opFx0A_of_none (leastKey_rising_none hnone), rfl, s.waitHere_changesOnly⟩
  case takes =>
    obtain ⟨hx, hregs, hpc, hframe⟩ := s.setV_advance_writes x (BitVec.ofNat 8 k)
    refine ⟨_, exec_opFx0A_of_some (leastKey_rising_some hk hrises hmin), ?_, hregs, rfl, hpc, hframe⟩
    rw [hx, BitVec.toNat_ofNat]
    omega

/-- Settles O42: `Fx07` writes one register, `Fx15` and `Fx18` one timer each. -/
theorem timerTransfers : Obligations.TimerTransfers := fun x s =>
  ⟨⟨_, exec_opFx07 x s, s.setV_advance_writes x s.dt⟩,
    ⟨_, exec_opFx15 x s, rfl, rfl, s.setDt_advance_changesOnly _⟩,
    ⟨_, exec_opFx18 x s, rfl, rfl, s.setSt_advance_changesOnly _⟩⟩

/-- Settles O44: a sum up to 0xFFF fits in 16 bits; a greater one is the branch that raises the fault. -/
theorem addToIndexOrFault : Obligations.AddToIndexOrFault := by
  intro x s
  refine ⟨fun h => ⟨_, exec_opFx1E_of_le h, ?sum, rfl, s.setI_advance_changesOnly _⟩,
    fun h => ⟨_, exec_opFx1E_of_gt h, s.raise_entersFault _⟩⟩
  case sum =>
    rw [State.advance_i, State.setI_i, BitVec.toNat_ofNat]
    omega

/-- Settles O45: `Fx29` writes the glyph's address to `I`, whose number is `glyphAddress_toNat`. -/
theorem indexPointsAtGlyph : Obligations.IndexPointsAtGlyph := fun x s =>
  ⟨_, exec_opFx29 x s, glyphAddress_toNat (s.getV x), rfl, s.setI_advance_changesOnly _⟩

end Sys2Proof.Machine

/-! Memory transfers (45_timers_index_memory.md section 3). -/

namespace Sys2Proof.Machine

/-- Byte `k` of a range that was written inside the address space. -/
theorem Memory.read_writeBytes_getElem {m : List Host.Cell} (h : Memory.wf m = true) {a : Nat} {bs : List Byte}
    (ha : a + bs.length ≤ Config.memSize) {k : Nat} (hk : k < bs.length) :
    Memory.read (Memory.writeBytes m a bs) (a + k) = bs[k] := by
  rw [Memory.read_writeBytes h a bs ha, dif_pos ⟨by omega, by omega⟩]
  simp

/-- The digits have the byte as their value, and the last two are digits (R236). -/
theorem decimalDigits_value (b : Byte) :
    b.toNat = 100 * (BitVec.ofNat 8 (b.toNat / 100)).toNat + 10 * (BitVec.ofNat 8 (b.toNat / 10 % 10)).toNat +
        (BitVec.ofNat 8 (b.toNat % 10)).toNat ∧
      (BitVec.ofNat 8 (b.toNat / 10 % 10)).toNat ≤ 9 ∧ (BitVec.ofNat 8 (b.toNat % 10)).toNat ≤ 9 := by
  have := b.isLt
  simp only [BitVec.toNat_ofNat]
  omega

/-- Settles O46: the three digits are read back where they were written. -/
theorem decimalDigitsAreStored : Obligations.DecimalDigitsAreStored := by
  intro x s
  refine ⟨fun h hwf => ⟨_, exec_opFx33_of_le h, ?_⟩, fun h => ⟨_, exec_opFx33_of_gt h, s.raise_entersFault _⟩⟩
  rw [State.advance_mem, State.setMem_mem]
  have hfits : s.i.toNat + (decimalDigits (s.getV x)).length ≤ Config.memSize := by
    have := memSize_eq
    simp [decimalDigits]
    omega
  have hread := fun k hk => Memory.read_writeBytes_getElem hwf hfits (k := k) hk
  have h0 := hread 0 (Nat.zero_lt_succ _)
  have h1 := hread 1 (Nat.one_lt_succ_succ _)
  have h2 := hread 2 (Nat.lt_succ_self _)
  obtain ⟨hvalue, htens, hones⟩ := decimalDigits_value (s.getV x)
  rw [Nat.add_zero] at h0
  rw [h0, h1, h2]
  exact ⟨hvalue, htens, hones, fun a ha => Memory.read_writeBytes_outside _ _ _ ha, rfl,
    s.setMem_advance_changesOnly _⟩

/-- The stored registers, read back from memory (R237). -/
theorem read_writeBytes_bytesV {s : State} {x : RegIdx} (h : s.i.toNat + x.toNat ≤ 0xFFF)
    (hwf : Memory.wf s.mem = true) {j : Nat} (hj : j ≤ x.toNat) :
    Memory.read (Memory.writeBytes s.mem s.i.toNat (s.bytesV x)) (s.i.toNat + j) = s.getV (BitVec.ofNat 4 j) := by
  have hsize := memSize_eq
  have hlen := s.bytesV_length x
  rw [Memory.read_writeBytes_getElem hwf (by omega) (by omega), State.bytesV_getElem]

/-- Settles O47: register `k` is byte `k` of the stored range. -/
theorem registersAreStored : Obligations.RegistersAreStored := by
  intro x s
  refine ⟨fun h hwf => ⟨_, exec_opFx55_of_le h, fun k hk => ?stored, fun a ha => ?outside, rfl,
      s.setMem_advance_changesOnly _⟩, fun h => ⟨_, exec_opFx55_of_gt h, s.raise_entersFault _⟩⟩
  case stored => simpa using read_writeBytes_bytesV h hwf hk
  case outside => exact Memory.read_writeBytes_outside _ _ _ (by rwa [s.bytesV_length])

/-- Settles O48: `loadV_getV` says what each register holds. -/
theorem registersAreLoaded : Obligations.RegistersAreLoaded := fun x s =>
  ⟨fun h => ⟨_, exec_opFx65_of_le h, s.loadV_getV x s.i.toNat, rfl, s.loadV_advance_changesOnly _ _⟩,
    fun h => ⟨_, exec_opFx65_of_gt h, s.raise_entersFault _⟩⟩

/-- Settles O50: the opcode at `PC` is made of two bytes of the stored range. -/
theorem storedBytesAreFetchedNext : Obligations.StoredBytesAreFetchedNext := by
  intro x s t j h hwf ht hpc hj
  obtain rfl : _ = t := Host.Outcome.next.inj ((exec_opFx55_of_le h).symm.trans ht)
  rw [opcodeAt_eq, assembleOpcode_toNat, hpc, State.advance_mem, State.setMem_mem, Nat.add_assoc,
    read_writeBytes_bytesV h hwf (by omega), read_writeBytes_bytesV h hwf hj]

end Sys2Proof.Machine

/-! Sprites (43_display.md section 3). -/

namespace Sys2Proof.Machine

/-- A sprite lies in memory: its range is empty or ends by 0xFFF (R197). -/
theorem rangePassesEnd_eq_false {base len : Nat} (h : len = 0 ∨ base + len - 1 ≤ 0xFFF) :
    rangePassesEnd base len = false := by
  rw [← Bool.not_eq_true, rangePassesEnd_iff]
  omega

theorem flagByte_toNat_eq_one_iff (b : Bool) : (flagByte b).toNat = 1 ↔ b = true := by
  cases b <;> decide

theorem flagByte_toNat_le_one (b : Bool) : (flagByte b).toNat ≤ 1 := by
  cases b <;> decide

section
variable {x y : RegIdx} {n : BitVec 4} {s t : State}
  (hin : n.toNat = 0 ∨ s.i.toNat + n.toNat - 1 ≤ 0xFFF) (h : exec (.opDxyn x y n) s = .next t)
include hin h

/-- The state that a draw inside memory answers. -/
theorem exec_opDxyn_eq :
    t = ((s.setV regF (flagByte (drawSprite s.mem (s.getV x) (s.getV y) s.i.toNat n.toNat s.fb).hit)).drawn
      (drawSprite s.mem (s.getV x) (s.getV y) s.i.toNat n.toNat s.fb).fb).advance :=
  Host.Outcome.next.inj (h.symm.trans (exec_opDxyn_of_inside (rangePassesEnd_eq_false hin)))

/-- A pixel of the grid after a draw: flipped where the sprite sets it (R192). -/
theorem exec_opDxyn_pixel {r : Nat} (hr : r < 32) (c : Nat) : pixel t.fb r c =
    (pixel s.fb r c ^^ setsPixel s.mem (s.getV x) (s.getV y) s.i.toNat n.toNat r c) := by
  obtain rfl := exec_opDxyn_eq hin h
  have hpix := (drawSprite_spec s.mem (s.getV x) (s.getV y) s.i.toNat n.toNat s.fb).1 r c
  rwa [decide_eq_true hr, Bool.true_and] at hpix

/-- `VF` after a draw is the collision flag. -/
theorem exec_opDxyn_flag : t.getV 0xF#4 =
    flagByte (drawSprite s.mem (s.getV x) (s.getV y) s.i.toNat n.toNat s.fb).hit := by
  obtain rfl := exec_opDxyn_eq hin h
  simp [regF]

/-- `VF` after a draw is 1 exactly when the sprite sets a lit pixel (R196). -/
theorem exec_opDxyn_flag_iff : (t.getV 0xF#4).toNat = 1 ↔ ∃ r c, r < 32 ∧ c < 64 ∧
    SpriteCovers s (s.getV x).toNat (s.getV y).toNat n.toNat r c ∧ pixel s.fb r c = true := by
  rw [exec_opDxyn_flag hin h, flagByte_toNat_eq_one_iff, (drawSprite_spec _ _ _ _ _ _).2]
  simp only [setsPixel_iff]
  constructor
  · rintro ⟨r, c, hr, hcov, hlit⟩
    obtain ⟨j, b, _, _, _, hc, _⟩ := id hcov
    exact ⟨r, c, hr, by omega, hcov, hlit⟩
  · rintro ⟨r, c, hr, _, hcov, hlit⟩
    exact ⟨r, c, hr, hcov, hlit⟩

end

/-- Settles O36: the pixels are those of `drawSprite_spec`, whose predicate is `SpriteCovers`. -/
theorem drawXorsSpriteAndReportsCollision : Obligations.DrawXorsSpriteAndReportsCollision := by
  intro x y n s hin
  have hexec := exec_opDxyn_of_inside (x := x) (y := y) (rangePassesEnd_eq_false hin)
  refine ⟨_, hexec, fun r c hr _ => ?flips, exec_opDxyn_flag_iff hin hexec, ?flag, fun k hk => ?regs, rfl, rfl,
    s.setV_drawn_advance_changesOnly _ _ _⟩
  case flips =>
    rw [exec_opDxyn_pixel hin hexec hr, ← setsPixel_iff]
    cases pixel s.fb r c <;> simp
  case flag =>
    rw [exec_opDxyn_flag hin hexec]
    exact flagByte_toNat_le_one _
  case regs =>
    rw [List.mem_singleton] at hk
    simp [regF, hk]

/-- Settles O37: a draw leaves memory and `I`, so the second sets the same pixels as the first, and a pixel
set twice is as it was. -/
theorem drawTwiceRestoresTheGrid : Obligations.DrawTwiceRestoresTheGrid := by
  intro x y n s t u hin hst hx hy htu
  have hpix {r : Nat} (hr : r < 32) (c : Nat) := exec_opDxyn_pixel hin hst hr c
  have hmem : t.mem = s.mem := by rw [exec_opDxyn_eq hin hst]; rfl
  have hi : t.i = s.i := by rw [exec_opDxyn_eq hin hst]; rfl
  have hin' : n.toNat = 0 ∨ t.i.toNat + n.toNat - 1 ≤ 0xFFF := by rwa [hi]
  refine ⟨fun r c hr _ => ?restored, fun hdark hsome => ?collides⟩
  case restored =>
    rw [exec_opDxyn_pixel hin' htu hr, hpix hr, hmem, hi, hx, hy, Bool.xor_assoc, Bool.xor_self, Bool.xor_false]
  case collides =>
    obtain ⟨r, c, hr, hc, hcov⟩ := hsome
    have hset := (setsPixel_iff s (s.getV x) (s.getV y) n.toNat r c).2 hcov
    refine (exec_opDxyn_flag_iff hin' htu).2 ⟨r, c, hr, hc, ?_, ?_⟩
    · rwa [← setsPixel_iff, hmem, hi, hx, hy]
    · rw [hpix hr, hset, hdark r c hr hc hcov, Bool.false_xor]

/-- Settles O49: the check of the whole range comes before any change. -/
theorem drawPastTheEndFaults : Obligations.DrawPastTheEndFaults := fun _ _ _ s hn h =>
  ⟨_, exec_opDxyn_of_outside ((rangePassesEnd_iff _ _).2 ⟨hn, h⟩), s.raise_entersFault _⟩

end Sys2Proof.Machine

/-! The host's operations, the host's reads and reset (40_operations.md; 10_state.md sections 8, 11, 12). -/

namespace Sys2Proof.Machine

/-- A step that performs the oldest request changes what the operation changes, and takes the request off. -/
theorem ChangesOnly.of_setSchedule {ps : List Piece} {s t : State} {rest : List HostOp}
    (h : ChangesOnly ps (s.setSchedule rest) t) : ChangesOnly (ps ++ [.schedule]) s t :=
  ((s.setSchedule_changesOnly rest).trans h).mono (by intro p; simp [or_comm])

/-- Both timers after `n` ticks. -/
theorem State.tickTimers_iterate_toNat (n : Nat) (s : State) :
    (State.tickTimers^[n] s).dt.toNat = s.dt.toNat - n ∧ (State.tickTimers^[n] s).st.toNat = s.st.toNat - n := by
  induction n generalizing s with
  | zero => exact ⟨rfl, rfl⟩
  | succ n ih =>
    obtain ⟨hdt, hst⟩ := ih s.tickTimers
    rw [Function.iterate_succ_apply, hdt, hst, State.tickTimers_dt, State.tickTimers_st, timerStep_toNat,
      timerStep_toNat]
    omega

/-- Settles O13: one tick is `timerStep` of each timer, and `n` ticks by induction. -/
theorem tickTimersCountsBothDown : Obligations.TickTimersCountsBothDown :=
  ⟨fun s _ hs => ⟨_, step_request hs, timerStep_toNat s.dt, timerStep_toNat s.st, rfl,
    .of_setSchedule (State.tickTimers_changesOnly _)⟩, State.tickTimers_iterate_toNat⟩

/-- Settles O14: the request is taken off and the latch shifts. -/
theorem keyUpdateShiftsTheLatch : Obligations.KeyUpdateShiftsTheLatch := fun _ _ _ hs =>
  ⟨_, step_request hs, rfl, rfl, rfl, .of_setSchedule (State.keyUpdate_changesOnly _ _)⟩

/-- The frame of a load that is refused. -/
theorem State.loadROM_tooLarge_changesOnly {s : State} {bytes : List Byte}
    (h : romTooLarge bytes.length = true) : ChangesOnly [.events] s (s.loadROM bytes) := by
  rw [State.loadROM_tooLarge h]
  intro p hp
  cases p <;> simp_all [Piece.Same, State.getV]

/-- The frame of a load that fits. -/
theorem State.loadROM_fits_changesOnly {s : State} {bytes : List Byte}
    (h : romTooLarge bytes.length = false) : ChangesOnly [.mem, .events] s (s.loadROM bytes) := by
  rw [State.loadROM_fits h]
  intro p hp
  cases p <;> simp_all [Piece.Same, State.getV]

/-- Settles O16: the two branches of the load, the copied bytes read back from where they were written. -/
theorem loadRomCopiesOrRefuses : Obligations.LoadRomCopiesOrRefuses := by
  intro s bytes rest hs
  refine ⟨fun h => ?refused, fun h hwf => ?copied⟩
  case refused =>
    have hbig := (romTooLarge_iff _).2 h
    refine ⟨_, step_request hs, ?_, ?_, .of_setSchedule (State.loadROM_tooLarge_changesOnly hbig)⟩
    all_goals rw [State.loadROM_tooLarge hbig]; rfl
  case copied =>
    have hfits : romTooLarge bytes.length = false := by rw [← Bool.not_eq_true, romTooLarge_iff]; omega
    have hmem : ((s.setSchedule rest).loadROM bytes).mem = Memory.writeBytes s.mem 0x200 bytes := by
      rw [State.loadROM_fits hfits]; rfl
    refine ⟨_, step_request hs, ?_, ?_, fun k hk => ?_, fun a ha => ?_,
      .of_setSchedule (State.loadROM_fits_changesOnly hfits)⟩
    · rw [State.loadROM_fits hfits]; rfl
    · rw [State.loadROM_fits hfits]; rfl
    · rw [hmem, Memory.read_writeBytes_getElem hwf (by rw [memSize_eq]; omega) hk]
    · rw [hmem, Memory.read_writeBytes_outside _ _ _ ha]

/-- Settles O17: `State.resetAll_hardware`, after the request is taken off. -/
theorem resetRestoresEverything : Obligations.ResetRestoresEverything := fun s rest hs =>
  ⟨(s.setSchedule rest).resetAll, step_request hs, fun _ => State.resetAll_hardware _, rfl, rfl, rfl⟩

/-- Outside the font table memory resets to 0 (R36, R61). -/
theorem resetByte_of_not_font {a : Nat} (h : ¬(0x050 ≤ a ∧ a ≤ 0x09F)) : Params.resetByte a = 0x00#8 := by
  refine if_neg ?_
  simp only [Config.fontBase, Config.fontSize]
  omega

/-- Settles O18: the fields of the reset state, and the reset contents of memory inside and outside the font
table. -/
theorem resetStateValues : Obligations.ResetStateValues := by
  refine ⟨rfl, rfl, fun k => ?stack, rfl, rfl, fun a _ ha => resetByte_of_not_font ha, by decide,
    fun r c _ _ => pixel_clear r c, rfl, rfl, fun k => ?regs, rfl, rfl, rfl, rfl, rfl⟩
  case stack => simp [State.reset]
  case regs => simp [State.reset, State.getV, Params.vReset]

/-- Settles O19: the word is a concatenation, read as a number part by part. -/
theorem statusWordLayout : Obligations.StatusWordLayout := by
  refine fun s => ⟨?_, rfl⟩
  simp only [State.statusWord, toNat_append_eq, BitVec.toNat_ofBool, BitVec.toNat_ofNat]
  omega

/-- Settles O20: the index is divided into its row and its column. -/
theorem hostReadsPixelsRowMajor : Obligations.HostReadsPixelsRowMajor := by
  intro s r c hr hc
  have hrow : (64 * r + c) / 64 = r := by omega
  have hcol : (64 * r + c) % 64 = c := by omega
  rw [State.hostPixel, hrow, hcol]
  split <;> rfl

/-- One strobe's share of the operations. -/
theorem ite_singleton_sublist (b : Bool) (op : HostOp) : (if b then [op] else []).Sublist [op] := by
  cases b <;> simp

/-- Settles O21: with Reset down, the operations are the shares of the strobes, in the listed order. -/
theorem coincidingRequestsAreOrdered : Obligations.CoincidingRequestsAreOrdered := by
  intro q k
  refine ⟨fun h => if_pos h, fun hreset hkey => ?_⟩
  have hkeys : (q.keyUpdate.map HostOp.keyUpdate).toList.Sublist [.keyUpdate k] := by
    obtain hq | hq := hkey <;> simp [hq]
  have hops : q.operations = (if q.drawAck then [.drawAck] else []) ++
      (q.keyUpdate.map HostOp.keyUpdate).toList ++ (if q.tickTimers then [.tickTimers] else []) ++
      (if q.runCycle then [.runCycle] else []) := if_neg (by simp [hreset])
  rw [hops]
  refine ⟨(((ite_singleton_sublist _ _).append hkeys).append (ite_singleton_sublist _ _)).append
    (ite_singleton_sublist _ _), ?_⟩
  simp

end Sys2Proof.Machine

/-! One cycle (40_operations.md section 2; 60_exceptions.md sections 1 to 3). -/

namespace Sys2Proof.Machine

/-! ### The state a cycle runs at -/

theorem CycleRunsFrom.fc {s s' : State} (h : CycleRunsFrom s s') : s'.fc = s.fc := by
  obtain ⟨rest, rfl⟩ := h.eq_setSchedule
  rfl

theorem CycleRunsFrom.pc {s s' : State} (h : CycleRunsFrom s s') : s'.pc = s.pc := by
  obtain ⟨rest, rfl⟩ := h.eq_setSchedule
  rfl

theorem CycleRunsFrom.events {s s' : State} (h : CycleRunsFrom s s') : s'.events = s.events := by
  obtain ⟨rest, rfl⟩ := h.eq_setSchedule
  rfl

theorem CycleRunsFrom.wk {s s' : State} (h : CycleRunsFrom s s') : s'.wk = s.wk := by
  obtain ⟨rest, rfl⟩ := h.eq_setSchedule
  rfl

theorem CycleRunsFrom.opcodeAt {s s' : State} (h : CycleRunsFrom s s') : opcodeAt s' = opcodeAt s := by
  obtain ⟨rest, rfl⟩ := h.eq_setSchedule
  rfl

theorem CycleRunsFrom.risesAt {s s' : State} (h : CycleRunsFrom s s') (k : Nat) :
    risesAt s' k ↔ risesAt s k := by
  obtain ⟨rest, rfl⟩ := h.eq_setSchedule
  rfl

/-! ### The branches of a cycle -/

theorem runCycle_halted {s : State} (h : s.fc ≠ .noFault) : runCycle s = .next s := if_pos h

theorem runCycle_fetchFault {s : State} (hf : s.fc = .noFault) (h : 0x0FFF ≤ s.pc.toNat) :
    runCycle s = .next (s.raise .fetchOutOfRange) := by
  have hfetch : s.fetch = none := s.fetch_none_iff.2 (by omega)
  simp [runCycle, hf, hfetch]

/-- An address where a cycle executes has no wrap in its successors (log 26). -/
theorem pc_add_toNat {pc : Word} (h : pc.toNat + 1 ≤ 0xFFF) {k : Nat} (hk : k ≤ 4) :
    (pc + BitVec.ofNat 16 k).toNat = pc.toNat + k := by
  rw [BitVec.toNat_add, BitVec.toNat_ofNat]
  omega

/-- Settles O7: a step that is a cycle, fetching a word that decodes. -/
theorem stepRunsFetchedInstruction : Obligations.StepRunsFetchedInstruction := by
  intro s i hf hpc hd
  exact ⟨fun hs => (step_idle hs).trans (runCycle_exec hf (State.fetch_opcodeAt hpc) hd),
    fun rest hs => (step_request hs).trans
      (runCycle_exec (s := s.setSchedule rest) hf (State.fetch_opcodeAt (s := s.setSchedule rest) hpc) hd)⟩

/-- Settles O8: a step that is a cycle, fetching a word that does not decode. -/
theorem unknownOpcodeIsReportedAndSkipped : Obligations.UnknownOpcodeIsReportedAndSkipped := by
  intro s s' e hc hf hpc he
  rw [← hc.fc] at hf
  rw [← hc.pc] at hpc ⊢
  rw [← hc.opcodeAt] at he ⊢
  rw [← hc.events]
  exact ⟨_, (step_cycleRunsFrom hc).trans (runCycle_unknown hf (State.fetch_opcodeAt hpc) he),
    pc_add_toNat hpc (k := 2) (by decide), rfl, rfl, rfl, s'.reportUnknown_changesOnly _⟩

/-- Settles O9: a step that is a cycle, whose fetch fails. -/
theorem fetchPastTheEndFaults : Obligations.FetchPastTheEndFaults := fun _ s' hc hf hpc =>
  ⟨_, (step_cycleRunsFrom hc).trans (runCycle_fetchFault (hc.fc.trans hf) (hc.pc ▸ hpc)), s'.raise_entersFault _⟩

/-- Settles O10: a step that is a cycle of a halted core. -/
theorem haltedCycleChangesNothing : Obligations.HaltedCycleChangesNothing := fun s hf =>
  ⟨fun hs => (step_idle hs).trans (runCycle_halted hf),
    fun rest hs => (step_request hs).trans (runCycle_halted (s := s.setSchedule rest) hf)⟩

/-! ### Where the program counter goes -/

/-- A skip's two targets as numbers. -/
theorem State.skipIf_pc_toNat {s : State} (hpc : s.pc.toNat + 1 ≤ 0xFFF) (c : Bool) :
    (s.skipIf c).pc.toNat = if c then s.pc.toNat + 4 else s.pc.toNat + 2 := by
  rw [State.skipIf_pc]
  cases c
  · exact pc_add_toNat hpc (k := 2) (by decide)
  · exact pc_add_toNat hpc (k := 4) (by decide)

/-- The instructions of R122's last row: no control transfer, no skip, no key wait. -/
def sequential : Instr → Bool
  | .op00EE | .op1nnn _ | .op2nnn _ | .op3xnn _ _ | .op4xnn _ _ | .op9xy0 _ _ | .opEx9E _ | .opExA1 _
  | .opFx0A _ => false
  | _ => true

/-- A sequential instruction that leaves the core running ends its cycle by `State.advance`. -/
theorem exec_sequential {i : Instr} {s t : State} (hi : sequential i = true) (h : exec i s = .next t)
    (ht : t.fc = .noFault) : t.pc = s.pc + 2#16 ∧ t.wk = false := by
  cases i
  case op00EE | op1nnn | op2nnn | op3xnn | op4xnn | op9xy0 | opEx9E | opExA1 | opFx0A => cases hi
  case opDxyn =>
    obtain ⟨_, rfl⟩ | ⟨_, rfl⟩ := execDxyn_cases h
    · cases ht
    · exact ⟨rfl, rfl⟩
  case opFx1E =>
    obtain ⟨_, rfl⟩ | ⟨_, rfl⟩ := execFx1E_cases h
    · cases ht
    · exact ⟨rfl, rfl⟩
  case opFx33 =>
    obtain ⟨_, rfl⟩ | ⟨_, rfl⟩ := execFx33_cases h
    · cases ht
    · exact ⟨rfl, rfl⟩
  case opFx55 =>
    obtain ⟨_, rfl⟩ | ⟨_, rfl⟩ := execFx55_cases h
    · cases ht
    · exact ⟨rfl, rfl⟩
  case opFx65 =>
    obtain ⟨_, rfl⟩ | ⟨_, rfl⟩ := execFx65_cases h
    · cases ht
    · exact ⟨rfl, rfl⟩
  all_goals cases h; exact ⟨rfl, rfl⟩

/-- `PC` after an instruction that leaves the core running, on numbers (R122). -/
theorem exec_pcAfter {i : Instr} {s t : State} (hpc : s.pc.toNat + 1 ≤ 0xFFF) (h : exec i s = .next t)
    (ht : t.fc = .noFault) : PcAfter s t i := by
  have htwo : (s.pc + 2#16).toNat = s.pc.toNat + 2 := pc_add_toNat hpc (k := 2) (by decide)
  cases i
  case op1nnn nnn => cases h; exact zext16_toNat nnn
  case op2nnn nnn =>
    obtain ⟨_, rfl⟩ | ⟨hs, rfl⟩ := exec2nnn_cases h
    · cases ht
    · refine ⟨zext16_toNat nnn, hs, ?_⟩
      have htop := (s.push_stack_getElem (s.pc + 2#16) hs ⟨s.sp.val, hs⟩).trans (if_pos rfl)
      exact (congrArg BitVec.toNat htop).trans htwo
  case op00EE =>
    obtain ⟨_, rfl⟩ | ⟨hs, rfl⟩ := exec00EE_cases h
    · cases ht
    · exact ⟨hs, rfl⟩
  case opFx0A =>
    obtain ⟨hnone, rfl⟩ | ⟨k, hk, hrises, -, rfl⟩ := execFx0A_cases h
    · exact ⟨fun ⟨k, hk, hrises⟩ => absurd hrises (hnone k hk), fun _ => rfl⟩
    · exact ⟨fun _ => htwo, fun hnone => absurd hrises (hnone k hk)⟩
  case op3xnn | op4xnn | op9xy0 => cases h; exact s.skipIf_pc_toNat hpc _
  case opEx9E | opExA1 =>
    cases h
    simp only [PcAfter, skips, ← s.keyDown_selectedKey]
    exact s.skipIf_pc_toNat hpc _
  all_goals exact (congrArg BitVec.toNat (exec_sequential rfl h ht).1).trans htwo

/-- Fault entry keeps `PC`, and only fault entry sets `FC`. -/
theorem exec_pc_of_fault {i : Instr} {s t : State} (hs : s.fc = .noFault) (h : exec i s = .next t)
    (ht : t.fc ≠ .noFault) : t.pc = s.pc := by
  obtain ⟨c, -, -, -, hframe⟩ := faultsArePreciseAndOwn i s t hs h ht
  exact hframe .pc (by simp)

/-- Settles O11: the four branches of a cycle; an instruction that completes goes where its class says. -/
theorem pcMovesByClass : Obligations.PcMovesByClass := by
  intro s t h
  obtain ⟨hf, rfl⟩ | ⟨hf, -, rfl⟩ | ⟨op, e, hf, hop, he, rfl⟩ | ⟨op, i, hf, hop, hi, hexec⟩ := runCycle_cases h
  case inl => exact ⟨fun _ => rfl, fun ht => absurd ht hf⟩
  case inr.inl => exact ⟨fun _ => rfl, fun ht => by cases ht⟩
  all_goals obtain ⟨hpc, rfl⟩ := State.fetch_some_opcodeAt hop
  case inr.inr.inl =>
    refine ⟨fun ht => absurd hf ht, fun _ => ⟨fun i hi => ?_, fun _ _ => ?_⟩⟩
    · cases he.symm.trans hi
    · exact pc_add_toNat hpc (k := 2) (by decide)
  case inr.inr.inr =>
    refine ⟨exec_pc_of_fault hf hexec, fun ht => ⟨fun j hj => ?_, fun e he => ?_⟩⟩
    · obtain rfl : i = j := Except.ok.inj (hi.symm.trans hj)
      exact exec_pcAfter hpc hexec ht
    · cases hi.symm.trans he

/-! ### The awaiting-key bit -/

/-- `WK` after an instruction that leaves the core running: set by a waiting `Fx0A` alone (R121). -/
theorem exec_wk {i : Instr} {s t : State} (h : exec i s = .next t) (ht : t.fc = .noFault) :
    t.wk = true ↔ ∃ x, i = .opFx0A x ∧ ∀ k, k < 16 → ¬risesAt s k := by
  cases i
  case opFx0A x =>
    obtain ⟨hnone, rfl⟩ | ⟨k, hk, hrises, -, rfl⟩ := execFx0A_cases h
    · exact ⟨fun _ => ⟨x, rfl, hnone⟩, fun _ => rfl⟩
    · refine ⟨fun hwk => ?_, fun ⟨_, _, hnone⟩ => absurd hrises (hnone k hk)⟩
      cases hwk
  case op00EE =>
    obtain ⟨_, rfl⟩ | ⟨_, rfl⟩ := exec00EE_cases h
    · cases ht
    · simp
  case op2nnn =>
    obtain ⟨_, rfl⟩ | ⟨_, rfl⟩ := exec2nnn_cases h
    · cases ht
    · simp
  case op1nnn | op3xnn | op4xnn | op9xy0 | opEx9E | opExA1 => cases h; simp
  all_goals simp [exec_sequential rfl h ht]

/-- Settles O12: a running cycle is a fetch fault, a report or an instruction. -/
theorem cycleWritesAwaitingKey : Obligations.CycleWritesAwaitingKey := by
  intro s s' t hc hf hstep
  rw [← hc.fc] at hf
  rw [← hc.wk, ← hc.opcodeAt]
  simp only [← hc.risesAt]
  obtain ⟨hf', -⟩ | ⟨-, -, rfl⟩ | ⟨op, e, -, hop, he, rfl⟩ | ⟨op, i, -, hop, hi, hexec⟩ :=
    runCycle_cases ((step_cycleRunsFrom hc).symm.trans hstep)
  case inl => exact absurd hf hf'
  case inr.inl => exact ⟨fun _ => rfl, fun ht => by cases ht⟩
  all_goals obtain ⟨hpc, rfl⟩ := State.fetch_some_opcodeAt hop
  case inr.inr.inl =>
    refine ⟨fun ht => absurd hf ht, fun _ => ?_⟩
    simp [he]
  case inr.inr.inr =>
    refine ⟨fun ht => ?_, fun ht => ?_⟩
    · obtain ⟨c, -, -, -, hframe⟩ := faultsArePreciseAndOwn i s' t hf hexec ht
      exact hframe .wk (by simp)
    · rw [exec_wk hexec ht, hi]
      simp

end Sys2Proof.Machine

/-! What every instruction and every step keeps (10_state.md sections 2, 8 to 10 and 13; 42_alu.md
section 1). -/

namespace Sys2Proof.Machine

/-! ### Registers -/

theorem RegsSameBut.mem_of_ne {ks : List RegIdx} {s t : State} (h : RegsSameBut ks s t) {k : RegIdx}
    (hk : t.getV k ≠ s.getV k) : k ∈ ks := by_contra fun hn => hk (h k hn)

/-- A register that changes is a destination, or the flag of an instruction with one (R21, R174). -/
theorem exec_register_changed {i : Instr} {s t : State} (h : exec i s = .next t) {k : RegIdx}
    (hk : t.getV k ≠ s.getV k) : destinations i k = true ∨ (k = 0xF#4 ∧ writesFlag i = true) := by
  cases i
  case op6xnn | op7xnn | op8xy0 | op8xy1 | op8xy2 | op8xy3 | opCxnn | opFx07 =>
    cases h
    have hmem := (State.setV_advance_regsSameBut _ _ _).mem_of_ne hk
    simpa [destinations, writesFlag] using hmem
  case op8xy4 | op8xy5 | op8xy6 | op8xy7 | op8xyE =>
    cases h
    obtain ⟨-, -, hregs, -⟩ := State.setResultFlag_advance_writes _ _ _ _
    simpa [destinations, writesFlag] using RegsSameBut.mem_of_ne hregs hk
  case opDxyn =>
    obtain ⟨_, rfl⟩ | ⟨_, rfl⟩ := execDxyn_cases h
    · exact absurd rfl hk
    · refine .inr ⟨?_, rfl⟩
      by_contra hne
      exact hk (by simp [regF, hne])
  case opFx0A =>
    obtain ⟨_, rfl⟩ | ⟨k, _, _, _, rfl⟩ := execFx0A_cases h
    · exact absurd rfl hk
    · have hmem := (State.setV_advance_regsSameBut _ _ _).mem_of_ne hk
      simpa [destinations, writesFlag] using hmem
  case opFx65 =>
    obtain ⟨_, rfl⟩ | ⟨_, rfl⟩ := execFx65_cases h
    · exact absurd rfl hk
    · refine .inl (decide_eq_true ?_)
      by_contra hgt
      exact hk (by simp [hgt])
  all_goals exact absurd (accessMatrixHolds _ s t h .v (by simp [mayWrite, writtenPieces, faultOf]) k) hk

/-- The flag that an instruction with one leaves in `VF` is a `flagByte`. -/
theorem exec_flag {i : Instr} {s t : State} (h : exec i s = .next t) (hi : writesFlag i = true)
    (ht : t.fc = .noFault) : ∃ b, t.getV 0xF#4 = flagByte b := by
  cases i
  case op8xy4 | op8xy5 | op8xy6 | op8xy7 | op8xyE =>
    cases h
    exact ⟨_, (State.setResultFlag_advance_writes _ _ _ _).1⟩
  case opDxyn =>
    obtain ⟨_, rfl⟩ | ⟨_, rfl⟩ := execDxyn_cases h
    · cases ht
    · exact ⟨_, (State.setV_getV s regF _ regF).trans (if_pos rfl)⟩
  all_goals cases hi

/-- Settles O57: `exec_register_changed`, and the flag is a `flagByte`. -/
theorem registersChangeOnlyAsDestinationOrFlag : Obligations.RegistersChangeOnlyAsDestinationOrFlag := by
  refine fun i s t h => ⟨fun k hk => exec_register_changed h hk, fun hi ht hs => ?_⟩
  obtain ⟨b, hb⟩ := exec_flag h hi (ht.trans hs)
  exact hb ▸ flagByte_toNat_le_one b

/-! ### The latch, the sticky bits and draw-pending -/

/-- No cycle changes the latch (R215). -/
theorem runCycle_latch {s t : State} (h : runCycle s = .next t) :
    t.keyCur = s.keyCur ∧ t.keyPrev = s.keyPrev := by
  obtain ⟨-, rfl⟩ | ⟨-, -, rfl⟩ | ⟨op, e, -, -, -, rfl⟩ | ⟨op, i, -, -, -, hexec⟩ := runCycle_cases h
  case inr.inr.inr =>
    obtain ⟨c, -, rfl⟩ | hk := exec_cases hexec
    · exact ⟨rfl, rfl⟩
    · exact ⟨hk.keyCur, hk.keyPrev⟩
  all_goals exact ⟨rfl, rfl⟩

/-- No cycle clears a fault cause or the unknown-opcode bit: a halted core's changes nothing, and a running
one's only sets them. -/
theorem runCycle_sticky {s t : State} (h : runCycle s = .next t) :
    (s.fc ≠ .noFault → t.fc = s.fc) ∧ (s.unk = true → t.unk = true) := by
  obtain ⟨-, rfl⟩ | ⟨hf, -, rfl⟩ | ⟨op, e, hf, -, -, rfl⟩ | ⟨op, i, hf, -, -, hexec⟩ := runCycle_cases h
  case inl => exact ⟨fun _ => rfl, id⟩
  all_goals refine ⟨fun hne => absurd hf hne, fun hunk => ?_⟩
  case inr.inl => exact hunk
  case inr.inr.inl => rfl
  case inr.inr.inr =>
    obtain ⟨c, -, rfl⟩ | hk := exec_cases hexec
    · exact hunk
    · exact hk.unk.trans hunk

/-- An instruction leaves draw-pending, or sets it (R28). -/
theorem exec_dp {i : Instr} {s t : State} (h : exec i s = .next t) (hs : s.dp = true) : t.dp = true := by
  cases i
  case op00E0 => cases h; rfl
  case opDxyn =>
    obtain ⟨_, rfl⟩ | ⟨_, rfl⟩ := execDxyn_cases h
    · exact hs
    · rfl
  all_goals exact Eq.trans (accessMatrixHolds _ s t h .dp (by simp [mayWrite, writtenPieces, faultOf])) hs

theorem runCycle_dp {s t : State} (h : runCycle s = .next t) (hs : s.dp = true) : t.dp = true := by
  obtain ⟨-, rfl⟩ | ⟨-, -, rfl⟩ | ⟨op, e, -, -, -, rfl⟩ | ⟨op, i, -, -, -, hexec⟩ := runCycle_cases h
  case inr.inr.inr => exact exec_dp hexec hs
  all_goals exact hs

/-- What a load leaves as it was, whether it fits or not: all but memory and the events. -/
theorem State.loadROM_changesOnly (s : State) (bytes : List Byte) :
    ChangesOnly [.mem, .events] s (s.loadROM bytes) := by
  cases hbig : romTooLarge bytes.length
  · exact State.loadROM_fits_changesOnly hbig
  · exact (State.loadROM_tooLarge_changesOnly hbig).mono (by simp)

/-- Settles O38: the two operations left out are the ones named. -/
theorem drawPendingClearedOnlyByHost : Obligations.DrawPendingClearedOnlyByHost := by
  intro s t h hs ht
  obtain ⟨-, hrun⟩ | ⟨op, rest, hsched, hop⟩ := step_cases h
  · rw [runCycle_dp hrun hs] at ht
    cases ht
  cases op
  case reset => exact ⟨rest, .inr hsched⟩
  case drawAck => exact ⟨rest, .inl hsched⟩
  case runCycle => cases (runCycle_dp hop hs).symm.trans ht
  case loadROM bytes =>
    obtain rfl : (s.setSchedule rest).loadROM bytes = t := Host.Outcome.next.inj hop
    have hframe := State.loadROM_changesOnly (s.setSchedule rest) bytes
    cases (Eq.trans (hframe .dp (by simp)) hs).symm.trans ht
  case tickTimers | keyUpdate =>
    cases hop
    cases hs.symm.trans ht

/-- Settles O41: the two operations left out are the ones named. -/
theorem latchChangesOnlyByHost : Obligations.LatchChangesOnlyByHost := by
  intro s t h hkey hreset
  obtain ⟨-, hrun⟩ | ⟨op, rest, hsched, hop⟩ := step_cases h
  · exact runCycle_latch hrun
  cases op
  case reset => exact absurd hsched (hreset rest)
  case keyUpdate snapshot => exact absurd hsched (hkey snapshot rest)
  case runCycle => exact runCycle_latch (s := s.setSchedule rest) hop
  case loadROM bytes =>
    obtain rfl : (s.setSchedule rest).loadROM bytes = t := Host.Outcome.next.inj hop
    have hframe := State.loadROM_changesOnly (s.setSchedule rest) bytes
    exact ⟨hframe .keyCur (by simp), hframe .keyPrev (by simp)⟩
  case tickTimers | drawAck => cases hop; exact ⟨rfl, rfl⟩

/-- Settles O55: Reset is the operation left out. -/
theorem faultAndReportBitsAreSticky : Obligations.FaultAndReportBitsAreSticky := by
  intro s t h hreset
  obtain ⟨-, hrun⟩ | ⟨op, rest, hsched, hop⟩ := step_cases h
  · exact runCycle_sticky hrun
  cases op
  case reset => exact absurd hsched (hreset rest)
  case runCycle => exact runCycle_sticky (s := s.setSchedule rest) hop
  case loadROM bytes =>
    obtain rfl : (s.setSchedule rest).loadROM bytes = t := Host.Outcome.next.inj hop
    have hframe := State.loadROM_changesOnly (s.setSchedule rest) bytes
    exact ⟨fun _ => hframe .fc (by simp), fun hunk => Eq.trans (hframe .unk (by simp)) hunk⟩
  case tickTimers | keyUpdate | drawAck => cases hop; exact ⟨fun _ => rfl, id⟩

/-! ### The end of a run -/

/-- Settles O60: the step runs the jump at `PC`, whose target is `PC`. -/
theorem finishedRunStaysFinished : Obligations.FinishedRunStaysFinished := by
  rintro s hs ⟨⟨hf, hunk⟩, hpc, nnn, hd, htarget⟩
  have hself : zext16 nnn = s.pc := BitVec.eq_of_toNat_eq ((zext16_toNat nnn).trans htarget)
  have hstep : step s = .next (s.jumpTo s.pc) := by
    rw [(stepRunsFetchedInstruction s _ hf hpc hd).1 hs, exec_op1nnn, hself]
  refine ⟨_, hstep, ⟨⟨hf, hunk⟩, hpc, nnn, hd, htarget⟩, fun p hp => ?_⟩
  by_cases hpp : p = .pc
  · subst hpp
    rfl
  · exact s.jumpTo_changesOnly s.pc p (by simp_all)

end Sys2Proof.Machine

/-! The machine's invariant (10_state.md section 13). -/

namespace Sys2Proof.Machine

/-- The invariant's clause on the call stack: every live slot is a return address that was pushed. -/
def LiveSlotsInRange (s : State) : Prop :=
  ∀ k : Fin 16, k.val < s.sp.val → (s.stack[k]).toNat ≤ 0x1000

section
variable {i : Instr} {s t : State} (h : exec i s = .next t)
include h

theorem exec_keeps_wf (hwf : Memory.wf s.mem = true) : Memory.wf t.mem = true := by
  obtain hm | ⟨bs, -, hfits, hm⟩ := exec_mem h
  · rwa [hm]
  · rw [hm]
    exact Memory.wf_writeBytes hwf bs hfits

/-- `I` stays in range: `Annn` has 12 bits, `Fx1E` checks its sum, and the last glyph address is 0x54B. -/
theorem exec_keeps_index (hi : s.i.toNat ≤ 0x0FFF) : t.i.toNat ≤ 0x0FFF := by
  cases i
  case opAnnn nnn =>
    cases h
    have := nnn.isLt
    rw [State.advance_i, State.setI_i, zext16_toNat]
    omega
  case opFx29 x =>
    cases h
    have := (s.getV x).isLt
    rw [State.advance_i, State.setI_i, glyphAddress_toNat]
    omega
  case opFx1E x =>
    obtain ⟨_, rfl⟩ | ⟨hsum, rfl⟩ := execFx1E_cases h
    · exact hi
    · rw [State.advance_i, State.setI_i, BitVec.toNat_ofNat]
      omega
  all_goals
    have hsame : t.i = s.i := accessMatrixHolds _ s t h .i (by simp [mayWrite, writtenPieces, faultOf])
    rwa [hsame]

/-- Live slots stay in range: only a call makes one live, with the address after it. -/
theorem exec_keeps_stack (hpc : s.pc.toNat + 1 ≤ 0xFFF) (hs : LiveSlotsInRange s) : LiveSlotsInRange t := by
  cases i
  case op00EE =>
    obtain ⟨_, rfl⟩ | ⟨hpos, rfl⟩ := exec00EE_cases h
    · exact hs
    · exact fun k hk => hs k (Nat.lt_of_lt_of_le hk (Nat.sub_le _ _))
  case op2nnn =>
    obtain ⟨_, rfl⟩ | ⟨hlt, rfl⟩ := exec2nnn_cases h
    · exact hs
    · intro k hk
      have hk : k.val < s.sp.val + 1 := hk
      rw [State.jumpTo_stack, s.push_stack_getElem]
      split
      · rw [pc_add_toNat hpc (k := 2) (by decide)]
        omega
      · exact hs k (by omega)
  all_goals
    have hsp : t.sp = s.sp := accessMatrixHolds _ s t h .sp (by simp [mayWrite, writtenPieces, faultOf])
    have hstack := accessMatrixHolds _ s t h .stack (by simp [mayWrite, writtenPieces, faultOf])
    intro k hk
    rw [hstack k]
    exact hs k (hsp ▸ hk)

end

/-- `PC` stays in range: targets have 12 bits, a return goes to a live slot, and elsewhere the greatest step
is 4 from an address that could be fetched. -/
theorem PcAfter.le {i : Instr} {s t : State} (h : PcAfter s t i) (hpc : s.pc.toNat + 1 ≤ 0xFFF)
    (hs : LiveSlotsInRange s) : t.pc.toNat ≤ 0x1002 := by
  cases i
  case op1nnn nnn =>
    have := nnn.isLt
    have h : t.pc.toNat = nnn.toNat := h
    omega
  case op2nnn nnn =>
    have := nnn.isLt
    obtain ⟨h, -⟩ := h
    omega
  case op00EE =>
    obtain ⟨hpos, h⟩ := h
    have hslot := hs ⟨s.sp.val - 1, by omega⟩ (Nat.sub_lt hpos Nat.one_pos)
    rw [h]
    exact hslot.trans (by decide)
  case opFx0A =>
    obtain ⟨hrise, hwait⟩ := h
    by_cases hk : ∃ k, k < 16 ∧ risesAt s k
    · have := hrise hk
      omega
    · have := hwait fun k hlt hr => hk ⟨k, hlt, hr⟩
      omega
  all_goals
    change t.pc.toNat = if skips s _ then s.pc.toNat + 4 else s.pc.toNat + 2 at h
    split at h <;> omega

/-- A running cycle's instruction keeps the invariant. -/
theorem exec_keeps_inv {i : Instr} {s t : State} (hs : MachineInv s) (hf : s.fc = .noFault)
    (hpc : s.pc.toNat + 1 ≤ 0xFFF) (h : exec i s = .next t) : MachineInv t := by
  obtain ⟨c, -, rfl⟩ | hk := exec_cases h
  · exact hs
  · obtain ⟨hwf, hi, -, hstack⟩ := hs
    exact ⟨exec_keeps_wf h hwf, exec_keeps_index h hi,
      (exec_pcAfter hpc h (hk.fc.trans hf)).le hpc hstack, exec_keeps_stack h hpc hstack⟩

theorem runCycle_keeps_inv {s t : State} (hs : MachineInv s) (h : runCycle s = .next t) : MachineInv t := by
  obtain ⟨-, rfl⟩ | ⟨-, -, rfl⟩ | ⟨op, e, -, hop, -, rfl⟩ | ⟨op, i, hf, hop, -, hexec⟩ := runCycle_cases h
  case inl | inr.inl => exact hs
  all_goals obtain ⟨hpc, -⟩ := State.fetch_some_opcodeAt hop
  case inr.inr.inl =>
    obtain ⟨hwf, hi, -, hstack⟩ := hs
    refine ⟨hwf, hi, ?_, hstack⟩
    rw [State.reportUnknown_pc, pc_add_toNat hpc (k := 2) (by decide)]
    omega
  case inr.inr.inr => exact exec_keeps_inv hs hf hpc hexec

/-- A load keeps the invariant: a ROM that fits ends inside the address space. -/
theorem State.loadROM_keeps_inv {s : State} (hs : MachineInv s) (bytes : List Byte) :
    MachineInv (s.loadROM bytes) := by
  cases hbig : romTooLarge bytes.length
  case true => rw [State.loadROM_tooLarge hbig]; exact hs
  case false =>
    have hfits := mt (romTooLarge_iff bytes.length).2 (by simp [hbig])
    obtain ⟨hwf, hrest⟩ := hs
    rw [State.loadROM_fits hbig]
    exact ⟨Memory.wf_writeBytes hwf bytes (by rw [memSize_eq, Config.progBase]; omega), hrest⟩

/-- Settles O52: at reset no cell is listed, no slot is live, `I` is 0 and `PC` is 0x200. -/
theorem invariantHoldsAtReset : Obligations.InvariantHoldsAtReset :=
  ⟨Memory.wf_reset, by decide, by decide, fun _ hk => absurd hk (Nat.not_lt_zero _)⟩

/-- Settles O51: a cycle by `runCycle_keeps_inv`, a load by `State.loadROM_keeps_inv`, Reset by the invariant
of the reset state; the other operations touch nothing the invariant speaks of. -/
theorem stepKeepsInvariant : Obligations.StepKeepsInvariant := by
  intro s t hs h
  obtain ⟨-, hrun⟩ | ⟨op, rest, -, hop⟩ := step_cases h
  · exact runCycle_keeps_inv hs hrun
  cases op
  case runCycle => exact runCycle_keeps_inv (s := s.setSchedule rest) hs hop
  case loadROM bytes =>
    obtain rfl : (s.setSchedule rest).loadROM bytes = t := Host.Outcome.next.inj hop
    exact State.loadROM_keeps_inv (s := s.setSchedule rest) hs bytes
  case reset => cases hop; exact invariantHoldsAtReset
  case tickTimers | keyUpdate | drawAck => cases hop; exact hs

end Sys2Proof.Machine

/-! What a program cannot see (10_state.md sections 10 and 15). -/

namespace Sys2Proof.Machine

/-- The state with everything that a program cannot see put at one value. -/
def State.visible (s : State) : State :=
  { s with st := 0x00#8, dp := false, wk := false, unk := false, events := [] }

theorem State.visible_changesOnly (s : State) : ChangesOnly [.st, .dp, .wk, .unk, .events] s s.visible := by
  intro p hp
  cases p
  case st | dp | wk | unk | events => simp at hp
  all_goals simp [Piece.Same, State.visible, State.getV]

/-- Framebuffers that read the same pixel by pixel are the same. -/
theorem fb_ext {fb fb' : Vector (BitVec 64) 32} (h : ∀ r c, pixel fb r c = pixel fb' r c) : fb = fb' := by
  apply Vector.ext
  intro r hr
  apply BitVec.eq_of_getLsbD_eq
  intro c _
  have := h r c
  rwa [pixel, pixel, dif_pos hr, dif_pos hr] at this

/-- States of which programs see the same have the same visible part as data, the memories being
canonical. -/
theorem visible_eq_of_sameToPrograms {s s' : State} (hm : Memory.wf s.mem = true) (hm' : Memory.wf s'.mem = true)
    (h : SameToPrograms s s') : s'.visible = s.visible := by
  have hv : s'.v = s.v := State.v_ext (h .v (by simp))
  have hi : s'.i = s.i := h .i (by simp)
  have hpc : s'.pc = s.pc := h .pc (by simp)
  have hstack : s'.stack = s.stack := Vector.ext fun k hk => h .stack (by simp) ⟨k, hk⟩
  have hsp : s'.sp = s.sp := h .sp (by simp)
  have hdt : s'.dt = s.dt := h .dt (by simp)
  have hmem : s'.mem = s.mem := Memory.ext_of_read hm' hm (h .mem (by simp))
  have hfb : s'.fb = s.fb := fb_ext (h .fb (by simp))
  have hcur : s'.keyCur = s.keyCur := h .keyCur (by simp)
  have hprev : s'.keyPrev = s.keyPrev := h .keyPrev (by simp)
  have hfc : s'.fc = s.fc := h .fc (by simp)
  have hrnd : s'.rndCount = s.rndCount := h .rndCount (by simp)
  have hsched : s'.schedule = s.schedule := h .schedule (by simp)
  simp only [State.visible, hv, hi, hpc, hstack, hsp, hdt, hmem, hfb, hcur, hprev, hfc, hrnd, hsched]

theorem sameToPrograms_of_visible_eq {t t' : State} (h : t'.visible = t.visible) : SameToPrograms t t' := by
  have hframe := t'.visible_changesOnly.symm
  rw [h] at hframe
  exact (t.visible_changesOnly.trans hframe).mono (by simp)

/-- An instruction does to the visible part what it does to the whole, as far as can be seen. -/
theorem exec_visible {i : Instr} {s t : State} (h : exec i s = .next t) :
    ∃ u, exec i s.visible = .next u ∧ u.visible = t.visible := by
  cases i
  case op00EE =>
    obtain ⟨hs, rfl⟩ | ⟨hs, rfl⟩ := exec00EE_cases h
    · exact ⟨_, exec_op00EE_of_empty (s := s.visible) hs, rfl⟩
    · exact ⟨_, exec_op00EE_of_pos (s := s.visible) hs, rfl⟩
  case op2nnn nnn =>
    obtain ⟨hs, rfl⟩ | ⟨hs, rfl⟩ := exec2nnn_cases h
    · exact ⟨_, exec_op2nnn_of_full (s := s.visible) nnn hs, rfl⟩
    · exact ⟨_, exec_op2nnn_of_lt (s := s.visible) nnn hs, rfl⟩
  case opDxyn =>
    obtain ⟨hr, rfl⟩ | ⟨hr, rfl⟩ := execDxyn_cases h
    · exact ⟨_, exec_opDxyn_of_outside (s := s.visible) hr, rfl⟩
    · exact ⟨_, exec_opDxyn_of_inside (s := s.visible) hr, rfl⟩
  case opFx0A =>
    obtain ⟨hnone, rfl⟩ | ⟨k, hk, hrises, hmin, rfl⟩ := execFx0A_cases h
    · exact ⟨_, exec_opFx0A_of_none (leastKey_rising_none (s := s.visible) hnone), rfl⟩
    · exact ⟨_, exec_opFx0A_of_some (leastKey_rising_some (s := s.visible) hk hrises hmin), rfl⟩
  case opFx1E =>
    obtain ⟨hs, rfl⟩ | ⟨hs, rfl⟩ := execFx1E_cases h
    · exact ⟨_, exec_opFx1E_of_gt (s := s.visible) hs, rfl⟩
    · exact ⟨_, exec_opFx1E_of_le (s := s.visible) hs, rfl⟩
  case opFx33 =>
    obtain ⟨hs, rfl⟩ | ⟨hs, rfl⟩ := execFx33_cases h
    · exact ⟨_, exec_opFx33_of_gt (s := s.visible) hs, rfl⟩
    · exact ⟨_, exec_opFx33_of_le (s := s.visible) hs, rfl⟩
  case opFx55 =>
    obtain ⟨hs, rfl⟩ | ⟨hs, rfl⟩ := execFx55_cases h
    · exact ⟨_, exec_opFx55_of_gt (s := s.visible) hs, rfl⟩
    · exact ⟨_, exec_opFx55_of_le (s := s.visible) hs, rfl⟩
  case opFx65 =>
    obtain ⟨hs, rfl⟩ | ⟨hs, rfl⟩ := execFx65_cases h
    · exact ⟨_, exec_opFx65_of_gt (s := s.visible) hs, rfl⟩
    · exact ⟨_, exec_opFx65_of_le (s := s.visible) hs, rfl⟩
  all_goals cases h; exact ⟨_, rfl, rfl⟩

/-- Settles O59: equal visible parts go to one state, whose visible part is that of both answers. -/
theorem statusIsInvisibleToPrograms : Obligations.StatusIsInvisibleToPrograms := by
  intro i s s' t t' hm hm' hsame h h'
  obtain ⟨u, hu, hut⟩ := exec_visible h
  obtain ⟨u', hu', hut'⟩ := exec_visible h'
  rw [visible_eq_of_sameToPrograms hm hm' hsame, hu] at hu'
  obtain rfl : u = u' := Host.Outcome.next.inj hu'
  exact sameToPrograms_of_visible_eq (hut'.symm.trans hut)

end Sys2Proof.Machine
